-- ==== Sys2Proof/Word.lean ====
section
/-!
DEFINITION. The word types. The block's registers are numbers (20_memory.md R33); the widths here are those of a byte on
the wire (00_scope.md section 5), of the 16-bit fields of the client frames (30_encoding.md R50) and of the converter's
arithmetic ("All arithmetic is unsigned 32-bit", 41_unit_converter.md R89).
-/
namespace Sys2Proof

/-- One byte on the link. -/
abbrev Byte := BitVec 8

/-- A 16-bit field of a client frame, and a field of the setpoint record (10_state.md R20). -/
abbrev Half := BitVec 16

/-- An unsigned 32-bit number, the width of the converter's arithmetic. -/
abbrev Word := BitVec 32

end Sys2Proof
end

