-- ==== Sys2Proof/Config.lean ====
section
/-!
DEFINITION. What an implementation fixes (00_scope.md section 4, the OPEN and the decided parameters) and the free
values. The parameters are plain data and stand in State.par, where no operation writes them: a statement over all states
holds for every device. Their values at reset are named in State.reset (log 5, log 6).
-/
namespace Sys2Proof

/-- `OVF_POLICY`: what a conversion outside its stated bounds does (92_eei_decisions.md D15). `refuse` is the decided
value; `wrap32` is the named alternative, literal unsigned 32-bit code. -/
inductive OvfPolicy
  | refuse
  | wrap32
  deriving DecidableEq, Repr

/-- One calibration entry (10_state.md R15): an unsigned gain of `GAIN_BITS` bits, a signed offset of `OFFSET_BITS`. -/
structure CalEntry where
  gain : Nat
  offset : Int
  deriving DecidableEq, Repr

/-- `CAL[0..7]` in index order (10_state.md R15, 92_eei_decisions.md D20). -/
structure CalTable where
  vset : CalEntry
  iset : CalEntry
  vread : CalEntry
  iread : CalEntry
  refread : CalEntry
  tread : CalEntry
  unused6 : CalEntry
  unused7 : CalEntry
  deriving DecidableEq, Repr

/-- `ADC_INPUT[0..4]`: the physical ADC input behind each scan-list entry (42_adc_scheduler.md R106, D27). The
environment maps them; no rule of the block reads them. -/
structure AdcInputs where
  reference : Nat
  current : Nat
  voltage : Nat
  loopback : Nat
  temperature : Nat
  deriving DecidableEq, Repr

/-- The parameters of one device: 00_scope.md section 4 and 10_state.md R15, R16. Written before the first event, never
afterwards (10_state.md R15, 20_memory.md R42). -/
structure Params where
  /-- The bootstrap's hand-off has happened (70_reset_and_hazards.md R186; log 17). -/
  bootDone : Bool
  /-- `SETPOINT_REQ_RESERVED` (92_eei_decisions.md D9). -/
  setpointReqReserved : Bool
  /-- `OVF_POLICY`. -/
  ovfPolicy : OvfPolicy
  /-- `T_IDLE`, read by no rule (the model has no clock, 40_codec_ops.md R76). -/
  tIdle : Nat
  /-- `ADCSHIFT`, at least 1. -/
  adcShift : Nat
  /-- `PWMSHIFT`, at least 1. -/
  pwmShift : Nat
  /-- `GAIN_BITS`. -/
  gainBits : Nat
  /-- `OFFSET_BITS`. -/
  offsetBits : Nat
  /-- `CAL[0..7]`. -/
  cal : CalTable
  /-- `ADC_BITS`, 1 to 19. -/
  adcBits : Nat
  /-- `ADC_INPUT[0..4]`. -/
  adcInput : AdcInputs
  /-- `OT_THRESH`, on the 16-times scale of the temperature reading. -/
  otThresh : Nat
  /-- `PWM_PERIOD`. -/
  pwmPeriod : Nat
  /-- `MAX_POWER`, percent-squared units. -/
  maxPower : Nat
  /-- `MAXDISP[P]`, read by no rule (92_eei_decisions.md D40). -/
  maxdispP : Nat
  deriving DecidableEq, Repr

/-- FREE VALUE. What the n-th diagnostic of a power-limit rejection puts on port `diag`: "`any value` (including
nothing)" (93_implementation_defined.md U4); the empty string stands for nothing. It has no body, so nothing can be
proved of its value (log 10). -/
opaque Config.diagText : Nat → List Byte

/-! FREE VALUES. What the registers hold at reset that "hold no value until an operation writes" them (10_state.md R25,
R26): "A model must not pick zero" for them, so each is a constant without a body, of which nothing can be proved (log 7). -/

/-- What `RAW[j]` holds before its first publication. -/
opaque Config.readingAtReset : Nat → Nat

/-- What `PWM_CMP_V` (0) and `PWM_CMP_I` (1) hold before the first `PWMSET`. -/
opaque Config.compareAtReset : Nat → Nat

/-- What `DP[V]` (0) and `DP[I]` (1) hold before `MKPROFILE`. -/
opaque Config.dpAtReset : Nat → BitVec 2

/-- What `MAXDISP[V]` (0) and `MAXDISP[I]` (1) hold before `MKPROFILE`. -/
opaque Config.maxdispAtReset : Nat → BitVec 14

/-- What `RBMUL[V]` (0) and `RBMUL[I]` (1) hold before `MKPROFILE`. -/
opaque Config.rbmulAtReset : Nat → Word

/-- What `SPMUL[V]` (0) and `SPMUL[I]` (1) hold before `MKPROFILE`. -/
opaque Config.spmulAtReset : Nat → Word

/-- What `DP[P]` holds before both kinds are written. -/
opaque Config.dpPAtReset : BitVec 3

/-- `BAUD_NORMAL` in bit/s (00_scope.md section 4); the UART is outside the block, so nothing reads it. -/
def Config.baudNormal : Nat := 500000

end Sys2Proof
end

