-- ==== Sys2Proof/Machine/Bits.lean ====
section
/-!
DEFINITION. Bit fields, byte order and the checksum: 00_scope.md section 5, 20_memory.md R33, 30_encoding.md R47 to R50,
40_codec_ops.md R66. The decoder and the machine share them.
-/
namespace Sys2Proof

/-- `class = header >> 4` (30_encoding.md R47). -/
def headerClass (h : Byte) : BitVec 4 := h.extractLsb' 4 4

/-- `N = header & 0x0F` (30_encoding.md R47). -/
def headerLen (h : Byte) : BitVec 4 := h.extractLsb' 0 4

/-- `header = (class << 4) | N` (30_encoding.md R47). -/
def headerByte (cls n : BitVec 4) : Byte := cls ++ n

/-- `unBE16(h, l) = (h << 8) + l` (00_scope.md section 5). -/
def unBE16 (h l : Byte) : Half := h ++ l

/-- `BE16(v)`: `v[15:8]` first, then `v[7:0]` (20_memory.md R33). -/
def be16 (v : Half) : List Byte := [v.extractLsb' 8 8, v.extractLsb' 0 8]

/-- A 32-bit number from four bytes, most significant first: for operands of the event script only (log 2). -/
def unBE32 (a b c d : Byte) : Word := a ++ b ++ c ++ d

/-- The four bytes of a 32-bit number, most significant first (log 2). -/
def be32 (v : Word) : List Byte :=
  [v.extractLsb' 24 8, v.extractLsb' 16 8, v.extractLsb' 8 8, v.extractLsb' 0 8]

/-- `CKSUM(s)`: the byte sum modulo 256, kept as an 8-bit sum that wraps (40_codec_ops.md R66). -/
def cksum : List Byte → Byte
  | [] => 0
  | b :: bs => b + cksum bs

/-- The object ids the source recognizes: 3, 4, 9, 10 (20_memory.md R31). -/
def isObjectId (id : Byte) : Bool := id == 3 || id == 4 || id == 9 || id == 10

end Sys2Proof
end

