-- ==== Sys2Proof/Syntax.lean ====
section
/-!
DEFINITION. The events of the block, one constructor per row of spec/opcode_table.json: seven frame shapes
(30_encoding.md R46 to R56, R62) and eighteen operations (30_encoding.md R59). The block fetches no instructions
(30_encoding.md R45); an `Instr` is one event of 20_memory.md R38, or, for a frame row, the arrival of that whole frame at
its receiving end (the event script's `RXF`, R61; log 3).
-/
namespace Sys2Proof

/-- The two ends of the link: which instance of the block, by its `ROLE` (00_scope.md R2). -/
inductive End
  | slave
  | master
  deriving DecidableEq, Repr

/-- A convertible quantity kind k in {V, I}. -/
inductive Quantity
  | voltage
  | current
  deriving DecidableEq, Repr

/-- The kind operand of `D2P` and `P2D`: V, I, or P, for which every conversion is refused (41_unit_converter.md R91). -/
inductive Kind
  | of (q : Quantity)
  | power
  deriving DecidableEq, Repr

/-- The calibration index of `RAW2PCT`, 2 to 5, "a read quantity" (41_unit_converter.md R92). -/
inductive ReadCal
  | vread
  | iread
  | refread
  | tread
  deriving DecidableEq, Repr

/-- The calibration index of `PCT2PWM`, 0 or 1 (41_unit_converter.md R93). -/
inductive SetCal
  | vset
  | iset
  deriving DecidableEq, Repr

/-- The entries of `SCAN_LIST`, index 0 to 4 (42_adc_scheduler.md R106). -/
inductive Channel
  | reference
  | current
  | voltage
  | loopback
  | temperature
  deriving DecidableEq, Repr

/-- The events. The checksum byte of a frame shape is an operand of its own, as in the table's encodings (letter `k`): a
frame may arrive with a wrong one. -/
inductive Instr
  /-- FRAME.HDR, R47: a frame of any class: header class and N, then the N bytes `body`, its checksum the last of them. -/
  | frameHdr (dst : End) (cls n : BitVec 4) (body : List Byte)
  /-- SETPOINT.REQ, R51, master to slave. -/
  | setpointReq (onoff : Bool) (v i : Half) (k : Byte)
  /-- SETPOINT.REQ.ALT, R51 with `SETPOINT_REQ_RESERVED` = false, master to slave. -/
  | setpointReqAlt (onoff : Bool) (v i : Half) (k : Byte)
  /-- SETPOINT.RSP, R52, slave to master. -/
  | setpointRsp (status : Byte) (v i : Half) (k : Byte)
  /-- OBJGET.REQ, R55, master to slave. -/
  | objgetReq (id k : Byte)
  /-- OBJGET.RSP.DATA, R56, slave to master. -/
  | objgetRspData (id : Byte) (x : Half) (k : Byte)
  /-- OBJGET.RSP.NODATA, R56, slave to master. -/
  | objgetRspNodata (id k : Byte)
  /-- CKSUM, R66. -/
  | cksum (bs : List Byte)
  /-- ENCODE, R67; the class is wider than four bits because a class above 15 is an operand that is refused. -/
  | encode (src : End) (cls : Half) (payload : List Byte)
  /-- DECODE, R69. -/
  | decode (buf : List Byte)
  /-- RXBYTE, R72. -/
  | rxbyte (dst : End) (b : Byte)
  /-- RXIDLE, R76. -/
  | rxidle (dst : End)
  /-- MKPROFILE, R86; the nominal rating is the rational num / den, num signed. -/
  | mkprofile (k : Quantity) (num den : Word)
  /-- D2P, R87. -/
  | d2p (k : Kind) (display : Word)
  /-- P2D, R88. -/
  | p2d (k : Kind) (percent : Word)
  /-- RAW2PCT, R92, of the reading `RAW[j]`. -/
  | raw2pct (i : ReadCal) (j : Channel)
  /-- PCT2PWM, R93. -/
  | pct2pwm (i : SetCal) (percent : Word)
  /-- ADCEVT, R107; `ADC_BITS` is at most 19. -/
  | adcevt (done : Bool) (code : BitVec 19)
  /-- OTEVAL, R112; `r` is "the temperature reading just published to RAW[4]". -/
  | oteval (r : Word)
  /-- PWMSET, R126. -/
  | pwmset (k : Quantity) (percent : Word)
  /-- OUTEN, R128. -/
  | outen (req : Bool)
  /-- SETPOINT, R138. -/
  | setpoint (payload : List Byte)
  /-- OBJGET, R145. -/
  | objget (payload : List Byte)
  /-- SETREQ, R148. -/
  | setreq (onoff : Bool) (dispV dispI : Word)
  /-- OBJREQ, R149. -/
  | objreq (id : Byte)
  deriving DecidableEq, Repr

end Sys2Proof
end

