-- ==== Sys2Proof/Decode.lean ====
section
/-!
DEFINITION. The decoder and the encoder of the event script (30_encoding.md R60; log 2).
The seven frame rows are read from wire bytes exactly as 30_encoding.md R46 to R56 lay them out, after one byte that names
the receiving end: direction "is an extra input" (R62). The eighteen operations have no bit pattern in the spec (R62,
`match` and `mask` null); the script gives each an opcode byte and its operands, and that layout is the model's own.
-/
namespace Sys2Proof

/-- Why bytes are not an event. -/
inductive DecodeError
  /-- The bytes end inside an event. -/
  | truncated
  /-- The first byte names no row. -/
  | unknownTag (tag : Byte)
  /-- An operand byte is outside the operand's range in the named row (an end, a kind, an index). -/
  | badOperand (row : String)
  deriving DecidableEq, Repr

/-- What a decoder answers: an instruction and the bytes after it, or the reason there is none. -/
abbrev Decoded := Except DecodeError (Instr × List Byte)

/-! ### Readers of one operand -/

/-- One byte. -/
def read8 : List Byte → Except DecodeError (Byte × List Byte)
  | b :: bs => .ok (b, bs)
  | [] => .error .truncated

/-- A 16-bit operand, most significant byte first. -/
def read16 : List Byte → Except DecodeError (Half × List Byte)
  | h :: l :: bs => .ok (unBE16 h l, bs)
  | _ => .error .truncated

/-- A 32-bit operand, most significant byte first. -/
def read32 : List Byte → Except DecodeError (Word × List Byte)
  | a :: b :: c :: d :: bs => .ok (unBE32 a b c d, bs)
  | _ => .error .truncated

/-- A byte string of known length. -/
def readList (n : Nat) (bs : List Byte) : Except DecodeError (List Byte × List Byte) :=
  if bs.length < n then .error .truncated else .ok (bs.take n, bs.drop n)

/-- One byte that names an operand through the table `f`; a byte outside it is refused under the row's name. -/
def readName {α : Type} (row : String) (f : Byte → Option α) (bs : List Byte) :
    Except DecodeError (α × List Byte) :=
  match bs with
  | [] => .error .truncated
  | b :: rest =>
    match f b with
    | some a => .ok (a, rest)
    | none => .error (.badOperand row)

/-! ### Operand bytes -/

/-- The byte of an end of the link. -/
def endByte : End → Byte
  | .slave => 0
  | .master => 1

/-- The end a byte names. -/
def endOf (b : Byte) : Option End :=
  if b = 0 then some .slave else if b = 1 then some .master else none

/-- The byte of a one-bit operand. -/
def boolByte : Bool → Byte
  | false => 0
  | true => 1

/-- The one-bit operand a byte names. -/
def boolOf (b : Byte) : Option Bool :=
  if b = 0 then some false else if b = 1 then some true else none

/-- The byte of a quantity kind: V 0, I 1. -/
def quantityByte : Quantity → Byte
  | .voltage => 0
  | .current => 1

/-- The quantity kind a byte names. -/
def quantityOf (b : Byte) : Option Quantity :=
  if b = 0 then some .voltage else if b = 1 then some .current else none

/-- The byte of a kind: V 0, I 1, P 2. -/
def kindByte : Kind → Byte
  | .of q => quantityByte q
  | .power => 2

/-- The kind a byte names. -/
def kindOf (b : Byte) : Option Kind :=
  if b = 2 then some .power else (quantityOf b).map Kind.of

/-- The calibration index 2 to 5 of a read quantity (10_state.md R15). -/
def readCalByte : ReadCal → Byte
  | .vread => 2
  | .iread => 3
  | .refread => 4
  | .tread => 5

/-- The read quantity of a calibration index; 0, 1, 6 and 7 are no operands of `RAW2PCT` (41_unit_converter.md R92). -/
def readCalOf (b : Byte) : Option ReadCal :=
  if b = 2 then some .vread else if b = 3 then some .iread else if b = 4 then some .refread
  else if b = 5 then some .tread else none

/-- The calibration index 0 or 1 of a set quantity (10_state.md R15). -/
def setCalByte : SetCal → Byte
  | .vset => 0
  | .iset => 1

/-- The set quantity of a calibration index (41_unit_converter.md R93). -/
def setCalOf (b : Byte) : Option SetCal :=
  if b = 0 then some .vset else if b = 1 then some .iset else none

/-- The scan-list index of a channel (42_adc_scheduler.md R106). -/
def channelByte : Channel → Byte
  | .reference => 0
  | .current => 1
  | .voltage => 2
  | .loopback => 3
  | .temperature => 4

/-- The channel of a scan-list index. -/
def channelOf (b : Byte) : Option Channel :=
  if b = 0 then some .reference else if b = 1 then some .current else if b = 2 then some .voltage
  else if b = 3 then some .loopback else if b = 4 then some .temperature else none

/-- The three bytes of a conversion code. -/
def codeBytes (c : BitVec 19) : List Byte :=
  [(c.extractLsb' 16 3).setWidth 8, c.extractLsb' 8 8, c.extractLsb' 0 8]

/-- The conversion code of three bytes; the first holds its top three bits. -/
def readCode : List Byte → Except DecodeError (BitVec 19 × List Byte)
  | a :: b :: c :: bs =>
    if a.toNat < 8 then .ok (a.extractLsb' 0 3 ++ b ++ c, bs) else .error (.badOperand "ADCEVT")
  | _ => .error .truncated

/-! ### Frames -/

/-- The row of a frame that arrives at the slave: a Setpoint request (30_encoding.md R51) in either length, an Object
request (R55), else a frame of no named shape. -/
def frameToSlave (h : Byte) (body : List Byte) : Instr :=
  match body with
  | [o, vh, vl, ih, il, r, k] =>
    if h = 0x17 ∧ o ≤ 1 ∧ r = 0 then .setpointReq (o == 1) (unBE16 vh vl) (unBE16 ih il) k
    else .frameHdr .slave (headerClass h) (headerLen h) body
  | [o, vh, vl, ih, il, k] =>
    if h = 0x16 ∧ o ≤ 1 then .setpointReqAlt (o == 1) (unBE16 vh vl) (unBE16 ih il) k
    else .frameHdr .slave (headerClass h) (headerLen h) body
  | [id, k] =>
    if h = 0x82 then .objgetReq id k
    else .frameHdr .slave (headerClass h) (headerLen h) body
  | _ => .frameHdr .slave (headerClass h) (headerLen h) body

/-- The row of a frame that arrives at the master: a Setpoint response (30_encoding.md R52), an Object response with or
without data (R56), else a frame of no named shape. -/
def frameToMaster (h : Byte) (body : List Byte) : Instr :=
  match body with
  | [st, vh, vl, ih, il, r, k] =>
    if h = 0x17 ∧ r = 0 then .setpointRsp st (unBE16 vh vl) (unBE16 ih il) k
    else .frameHdr .master (headerClass h) (headerLen h) body
  | [id, xh, xl, k] =>
    if h = 0x84 then .objgetRspData id (unBE16 xh xl) k
    else .frameHdr .master (headerClass h) (headerLen h) body
  | [id, k] =>
    if h = 0x82 then .objgetRspNodata id k
    else .frameHdr .master (headerClass h) (headerLen h) body
  | _ => .frameHdr .master (headerClass h) (headerLen h) body

/-- The row of the frame `h`, `body` by the end it arrives at. -/
def frameAt : End → Byte → List Byte → Instr
  | .slave => frameToSlave
  | .master => frameToMaster

/-- Reads one frame from the wire: its length is known from the header alone, N bytes follow it (30_encoding.md R48). -/
def decodeFrame (dst : End) (bs : List Byte) : Decoded := do
  let (h, bs) ← read8 bs
  let (body, bs) ← readList (headerLen h).toNat bs
  pure (frameAt dst h body, bs)

/-! ### Operations, one decoder a row (the layouts are the model's own, log 2) -/

/-- CKSUM: a 16-bit length and the bytes. -/
def decodeCksum (bs : List Byte) : Decoded := do
  let (n, bs) ← read16 bs
  let (s, bs) ← readList n.toNat bs
  pure (.cksum s, bs)

/-- ENCODE: an end, the class in 16 bits, a length and the payload. -/
def decodeEncode (bs : List Byte) : Decoded := do
  let (e, bs) ← readName "ENCODE" endOf bs
  let (c, bs) ← read16 bs
  let (n, bs) ← read8 bs
  let (p, bs) ← readList n.toNat bs
  pure (.encode e c p, bs)

/-- DECODE: a length of at most 16 and the buffer (40_codec_ops.md R69). -/
def decodeDecode (bs : List Byte) : Decoded := do
  let (n, bs) ← readName "DECODE" (fun b => if b.toNat ≤ 16 then some b.toNat else none) bs
  let (s, bs) ← readList n bs
  pure (.decode s, bs)

/-- RXBYTE: an end and the byte. -/
def decodeRxbyte (bs : List Byte) : Decoded := do
  let (e, bs) ← readName "RXBYTE" endOf bs
  let (b, bs) ← read8 bs
  pure (.rxbyte e b, bs)

/-- RXIDLE: an end. -/
def decodeRxidle (bs : List Byte) : Decoded := do
  let (e, bs) ← readName "RXIDLE" endOf bs
  pure (.rxidle e, bs)

/-- MKPROFILE: a kind, the numerator and the denominator of the nominal rating; a denominator of 0 makes no rational. -/
def decodeMkprofile (bs : List Byte) : Decoded := do
  let (k, bs) ← readName "MKPROFILE" quantityOf bs
  let (num, bs) ← read32 bs
  let (den, bs) ← read32 bs
  if den = 0 then .error (.badOperand "MKPROFILE") else pure (.mkprofile k num den, bs)

/-- D2P: a kind and the display value. -/
def decodeD2p (bs : List Byte) : Decoded := do
  let (k, bs) ← readName "D2P" kindOf bs
  let (v, bs) ← read32 bs
  pure (.d2p k v, bs)

/-- P2D: a kind and the percent value. -/
def decodeP2d (bs : List Byte) : Decoded := do
  let (k, bs) ← readName "P2D" kindOf bs
  let (v, bs) ← read32 bs
  pure (.p2d k v, bs)

/-- RAW2PCT: a calibration index and a scan-list index (the script's `R2P`). -/
def decodeRaw2pct (bs : List Byte) : Decoded := do
  let (i, bs) ← readName "RAW2PCT" readCalOf bs
  let (j, bs) ← readName "RAW2PCT" channelOf bs
  pure (.raw2pct i j, bs)

/-- PCT2PWM: a calibration index and the percent value (the script's `P2W`). -/
def decodePct2pwm (bs : List Byte) : Decoded := do
  let (i, bs) ← readName "PCT2PWM" setCalOf bs
  let (v, bs) ← read32 bs
  pure (.pct2pwm i v, bs)

/-- ADCEVT: the done flag and the code. -/
def decodeAdcevt (bs : List Byte) : Decoded := do
  let (d, bs) ← readName "ADCEVT" boolOf bs
  let (c, bs) ← readCode bs
  pure (.adcevt d c, bs)

/-- OTEVAL: the reading. -/
def decodeOteval (bs : List Byte) : Decoded := do
  let (r, bs) ← read32 bs
  pure (.oteval r, bs)

/-- PWMSET: a kind and the percent value (the script's `SET`). -/
def decodePwmset (bs : List Byte) : Decoded := do
  let (k, bs) ← readName "PWMSET" quantityOf bs
  let (v, bs) ← read32 bs
  pure (.pwmset k v, bs)

/-- OUTEN: the request bit (the script's `OEN`). -/
def decodeOuten (bs : List Byte) : Decoded := do
  let (r, bs) ← readName "OUTEN" boolOf bs
  pure (.outen r, bs)

/-- A dispatched payload: a length of at most 14 and the bytes (30_encoding.md R46). -/
def readPayload (row : String) (bs : List Byte) : Except DecodeError (List Byte × List Byte) := do
  let (n, bs) ← readName row (fun b => if b.toNat ≤ 14 then some b.toNat else none) bs
  readList n bs

/-- SETPOINT: the payload. -/
def decodeSetpoint (bs : List Byte) : Decoded := do
  let (p, bs) ← readPayload "SETPOINT" bs
  pure (.setpoint p, bs)

/-- OBJGET: the payload. -/
def decodeObjget (bs : List Byte) : Decoded := do
  let (p, bs) ← readPayload "OBJGET" bs
  pure (.objget p, bs)

/-- SETREQ: on/off and the two display values. -/
def decodeSetreq (bs : List Byte) : Decoded := do
  let (o, bs) ← readName "SETREQ" boolOf bs
  let (v, bs) ← read32 bs
  let (i, bs) ← read32 bs
  pure (.setreq o v i, bs)

/-- OBJREQ: the object id. -/
def decodeObjreq (bs : List Byte) : Decoded := do
  let (id, bs) ← read8 bs
  pure (.objreq id, bs)

/-- The decoder of one event of the script, by its first byte; a byte that names no row is refused by name. -/
def decodeTagged (tag : Byte) (bs : List Byte) : Decoded :=
  match tag.toNat with
  | 0x00 => decodeFrame .slave bs
  | 0x01 => decodeFrame .master bs
  | 0x10 => decodeCksum bs
  | 0x11 => decodeEncode bs
  | 0x12 => decodeDecode bs
  | 0x13 => decodeRxbyte bs
  | 0x14 => decodeRxidle bs
  | 0x15 => decodeMkprofile bs
  | 0x16 => decodeD2p bs
  | 0x17 => decodeP2d bs
  | 0x18 => decodeRaw2pct bs
  | 0x19 => decodePct2pwm bs
  | 0x1A => decodeAdcevt bs
  | 0x1B => decodeOteval bs
  | 0x1C => decodePwmset bs
  | 0x1D => decodeOuten bs
  | 0x1E => decodeSetpoint bs
  | 0x1F => decodeObjget bs
  | 0x20 => decodeSetreq bs
  | 0x21 => decodeObjreq bs
  | _ => .error (.unknownTag tag)

/-- The decoder, total on any bytes. -/
def decode : List Byte → Decoded
  | [] => .error .truncated
  | tag :: bs => decodeTagged tag bs

/-! ### The encoder -/

/-- The bytes a frame row puts on the wire, first byte first; the operand rows have none. -/
def wireBytes : Instr → Option (End × List Byte)
  | .frameHdr dst cls n body => some (dst, headerByte cls n :: body)
  | .setpointReq o v i k => some (.slave, 0x17 :: boolByte o :: (be16 v ++ be16 i ++ [0, k]))
  | .setpointReqAlt o v i k => some (.slave, 0x16 :: boolByte o :: (be16 v ++ be16 i ++ [k]))
  | .setpointRsp st v i k => some (.master, 0x17 :: st :: (be16 v ++ be16 i ++ [0, k]))
  | .objgetReq id k => some (.slave, [0x82, id, k])
  | .objgetRspData id x k => some (.master, 0x84 :: id :: (be16 x ++ [k]))
  | .objgetRspNodata id k => some (.master, [0x82, id, k])
  | .cksum _ => none
  | .encode _ _ _ => none
  | .decode _ => none
  | .rxbyte _ _ => none
  | .rxidle _ => none
  | .mkprofile _ _ _ => none
  | .d2p _ _ => none
  | .p2d _ _ => none
  | .raw2pct _ _ => none
  | .pct2pwm _ _ => none
  | .adcevt _ _ => none
  | .oteval _ => none
  | .pwmset _ _ => none
  | .outen _ => none
  | .setpoint _ => none
  | .objget _ => none
  | .setreq _ _ _ => none
  | .objreq _ => none

/-- A frame row in the script: its receiving end, then its bytes on the wire. -/
def encodeFrame (i : Instr) : List Byte :=
  match wireBytes i with
  | some (dst, bytes) => endByte dst :: bytes
  | none => []

/-- The encoder of the event script. -/
def encode : Instr → List Byte
  | .frameHdr dst cls n body => encodeFrame (.frameHdr dst cls n body)
  | .setpointReq o v i k => encodeFrame (.setpointReq o v i k)
  | .setpointReqAlt o v i k => encodeFrame (.setpointReqAlt o v i k)
  | .setpointRsp st v i k => encodeFrame (.setpointRsp st v i k)
  | .objgetReq id k => encodeFrame (.objgetReq id k)
  | .objgetRspData id x k => encodeFrame (.objgetRspData id x k)
  | .objgetRspNodata id k => encodeFrame (.objgetRspNodata id k)
  | .cksum bs => 0x10 :: (be16 (BitVec.ofNat 16 bs.length) ++ bs)
  | .encode e c p => 0x11 :: endByte e :: (be16 c ++ BitVec.ofNat 8 p.length :: p)
  | .decode buf => 0x12 :: BitVec.ofNat 8 buf.length :: buf
  | .rxbyte e b => [0x13, endByte e, b]
  | .rxidle e => [0x14, endByte e]
  | .mkprofile k num den => 0x15 :: quantityByte k :: (be32 num ++ be32 den)
  | .d2p k v => 0x16 :: kindByte k :: be32 v
  | .p2d k v => 0x17 :: kindByte k :: be32 v
  | .raw2pct i j => [0x18, readCalByte i, channelByte j]
  | .pct2pwm i v => 0x19 :: setCalByte i :: be32 v
  | .adcevt d c => 0x1A :: boolByte d :: codeBytes c
  | .oteval r => 0x1B :: be32 r
  | .pwmset k v => 0x1C :: quantityByte k :: be32 v
  | .outen r => [0x1D, boolByte r]
  | .setpoint p => 0x1E :: BitVec.ofNat 8 p.length :: p
  | .objget p => 0x1F :: BitVec.ofNat 8 p.length :: p
  | .setreq o v i => 0x20 :: boolByte o :: (be32 v ++ be32 i)
  | .objreq id => [0x21, id]

/-! ### Words of the opcode table -/

/-- The 16 bytes of a table word: bit 0 is the least significant bit of the first byte, and every bit above `nbits` is 0. -/
def tableBytes (nbits w : Nat) : List Byte :=
  (List.range 16).map fun i => BitVec.ofNat 8 ((w % 2 ^ nbits) >>> (8 * i))

/-- The end a table word's frame arrives at. A word has no direction, which the rows state beside it (30_encoding.md R62);
the first of master to slave and slave to master in which the frame has a named row is taken, and the slave for a frame of
no named row (log 3). -/
def tableEnd (h : Byte) (body : List Byte) : End :=
  match frameToSlave h body, frameToMaster h body with
  | .frameHdr _ _ _ _, .frameHdr _ _ _ _ => .slave
  | .frameHdr _ _ _ _, _ => .master
  | _, _ => .slave

/-- The bytes the script holds for a table word. A word is a frame on the wire, the only bit patterns of the table, but for
16 bits: ENCODE is the one row with a field, its class in bits 15 to 0, and its payload's length is then 0 (log 3). -/
def tableScript (nbits w : Nat) : List Byte :=
  if nbits = 16 then 0x11 :: endByte .slave :: (be16 (BitVec.ofNat 16 w) ++ [0])
  else
    match tableBytes nbits w with
    | [] => []
    | h :: bs =>
      let body := bs.take (headerLen h).toNat
      endByte (tableEnd h body) :: h :: body

/-- The instruction the decoder reads from a table word. -/
def decodeTableWord (nbits w : Nat) : Option Instr :=
  match decode (tableScript nbits w) with
  | .ok (i, _) => some i
  | .error _ => none

end Sys2Proof
end

