-- ==== Sys2Proof/Machine/State.lean ====
section
/-!
DEFINITION. The state: every register 10_state.md names, at both ends of one channel's link (log 1), the device's
parameters, what has left the output ports, and the events the environment has still to deliver. Plain data.
-/
namespace Sys2Proof.Machine

/-- The receive accumulator of one codec instance (10_state.md R11). -/
structure Codec where
  /-- `RXBUF[0..15]`; bytes at and above `RXLEN` have no meaning. -/
  rxbuf : Vector Byte 16
  /-- `RXLEN`, 0 to 16. -/
  rxlen : Nat
  deriving DecidableEq, Repr

/-- The conversion profile of one quantity kind (10_state.md R14). -/
structure Profile where
  /-- `MKPROFILE` has written these registers (41_unit_converter.md R86, "when both DP[V] and DP[I] are written"). -/
  written : Bool
  /-- `DP[k]`. -/
  dp : BitVec 2
  /-- `MAXDISP[k]`. -/
  maxdisp : BitVec 14
  /-- `RBMUL[k]`, readback-multiplier. -/
  rbmul : Word
  /-- `SPMUL[k]`, setpoint-multiplier. -/
  spmul : Word
  deriving DecidableEq, Repr

/-- One entry of `RAW[0..4]` (10_state.md R18). -/
structure Reading where
  /-- The averaged reading; before the first publication a free value (log 7). -/
  value : Nat
  /-- The reading has been published since reset (10_state.md R18, R26; 70_reset_and_hazards.md R187). -/
  published : Bool
  deriving DecidableEq, Repr

/-- `RAW[0..4]` (10_state.md R18). -/
structure RawStore where
  reference : Reading
  current : Reading
  voltage : Reading
  loopback : Reading
  temperature : Reading
  deriving DecidableEq, Repr

/-- The verdict of `DECODE` (40_codec_ops.md R69). -/
inductive Verdict
  | incomplete
  | complete (cls : BitVec 4) (payload : List Byte)
  | invalid
  deriving DecidableEq, Repr

/-- What an operation hands to the environment that called it ("deliver", 00_scope.md section 5). -/
inductive Result
  /-- The checksum of `CKSUM`. -/
  | checksum (b : Byte)
  /-- The frame of `ENCODE`. -/
  | frame (bytes : List Byte)
  /-- The verdict of `DECODE`. -/
  | verdict (v : Verdict)
  /-- The percent value of `D2P` or `RAW2PCT`. -/
  | percent (v : Half)
  /-- The display value of `P2D`. -/
  | display (v : Half)
  /-- The compare value of `PCT2PWM`. -/
  | compare (v : Nat)
  deriving DecidableEq, Repr

/-- One value that left an output port (10_state.md R22), or one result handed to a caller. -/
inductive Emission
  /-- `frame_out` of the codec at `src`. -/
  | frameOut (src : End) (v : Verdict)
  /-- `tx_bytes` of the codec at `src`: the bytes of one frame, in order. -/
  | txBytes (src : End) (frame : List Byte)
  /-- `adc_sel`. -/
  | adcSel (c : Channel)
  /-- `pwm_cmp_v`. -/
  | pwmCmpV (cmp : Nat)
  /-- `pwm_cmp_i`. -/
  | pwmCmpI (cmp : Nat)
  /-- `out_en`. -/
  | outEn (on : Bool)
  /-- `diag`; its content is a free value (log 10). -/
  | diag (text : List Byte)
  /-- A result handed to the caller. -/
  | result (r : Result)
  deriving DecidableEq, Repr

/-- The machine. A register the spec says holds no value until it is written (10_state.md R25, R26: the readings, the
profile registers, `DP[P]`, the compare registers) holds a free value until then (log 7). -/
structure State where
  /-- The device's parameters, never written by an operation. -/
  par : Params
  /-- `RXBUF`, `RXLEN` of the master's codec. -/
  rxM : Codec
  /-- `RXBUF`, `RXLEN` of the slave's codec. -/
  rxS : Codec
  /-- `DP[V]`, `MAXDISP[V]`, `RBMUL[V]`, `SPMUL[V]`. -/
  profV : Profile
  /-- `DP[I]`, `MAXDISP[I]`, `RBMUL[I]`, `SPMUL[I]`. -/
  profI : Profile
  /-- `DP[P]`. -/
  dpP : BitVec 3
  /-- `SCAN_IDX`. -/
  scanIdx : Channel
  /-- `ACC_SUM`. -/
  accSum : BitVec 32
  /-- `ACC_CNT`. -/
  accCnt : BitVec 14
  /-- `RAW[0..4]`. -/
  raw : RawStore
  /-- `OT_LATCH`. -/
  otLatch : Bool
  /-- `OUT_EN`. -/
  outEn : Bool
  /-- `PWM_CMP_V`. -/
  pwmCmpV : Nat
  /-- `PWM_CMP_I`. -/
  pwmCmpI : Nat
  /-- `SP_V`. -/
  spV : Half
  /-- `SP_I`. -/
  spI : Half
  /-- `SP_OVP`. -/
  spOvp : Half
  /-- `SP_OCP`. -/
  spOcp : Half
  /-- What has left the output ports, oldest first (log 4). -/
  emitted : List Emission
  /-- The model's own counter of diagnostics: the next one has the content `Config.diagText diagCount` (log 10). -/
  diagCount : Nat
  /-- The events the environment has still to deliver, in the script's encoding (log 2). -/
  script : List Byte
  deriving DecidableEq, Repr

/-- Why the machine stops. -/
inductive Fault
  /-- `ISPFAIL`: the bootstrap has not handed the link over, so the block does not run: "boot blocks for ever"
  (60_exceptions.md R155, R162; 70_reset_and_hazards.md R186). Raised by `step` alone, while `par.bootDone` is false.
  Safe: the device does nothing either. -/
  | ispFail
  deriving DecidableEq, Repr

/-- Why an event has no meaning. `Refused` is the spec's own outcome: "the spec gives the operation no meaning for those
operands: a model must not produce a value" (00_scope.md section 5, 60_exceptions.md R159). Each is safe: it errs toward
unprovable. -/
inductive Refusal
  /-- An instruction with no meaning in the model yet: raised by `exec`'s arms only; safe. -/
  | notModelled (mnemonic : String)
  /-- The script's bytes are no event: raised by `step`; safe. -/
  | undecodable (e : DecodeError)
  /-- The event is not well formed: raised by `step`; safe. -/
  | illFormed
  /-- ENCODE with a class above 15 or a payload above 14 bytes (R67): raised by ENCODE; safe. -/
  | encodeOperands
  /-- MKPROFILE with a nominal out of range (R86): raised by MKPROFILE; safe. -/
  | nominalRange
  /-- D2P with display above `MAXDISP[k]` under `OVF_POLICY` = refuse (R87): raised by D2P and SETREQ; safe. -/
  | displayRange
  /-- P2D with percent above 25600 under `OVF_POLICY` = refuse (R88): raised by P2D; safe. -/
  | percentRange
  /-- A conversion for k = P (R91): raised by D2P and P2D; safe. -/
  | powerKind
  /-- A product plus rounding term of 2^32 or more under `OVF_POLICY` = refuse (R92, R93): raised by RAW2PCT, PCT2PWM,
  PWMSET, SETPOINT and what dispatches one; safe. -/
  | productOverflow
  /-- A RAW2PCT result above 65535 (R92, D18): raised by RAW2PCT, SETPOINT and what dispatches one; safe. -/
  | percentOverflow
  /-- A PWM code below 0 or above `PWM_PERIOD` (R93, `PWM_RANGE_POLICY`): raised by PCT2PWM, PWMSET, SETPOINT and what
  dispatches one; safe. -/
  | pwmCodeRange
  /-- A Setpoint request whose on/off byte is above 1 (R138): raised by SETPOINT and what dispatches one; safe. -/
  | onoffUndefined
  /-- A done conversion code wider than `ADC_BITS` bits, which "is not an operand" (92_eei_decisions.md D21, V10): raised
  by ADCEVT; safe. -/
  | codeTooWide
  deriving DecidableEq, Repr

/-- SET-A of 95_test_vectors.md with the decided values of 00_scope.md section 4: the parameters at reset (DESIGN CHOICE,
unsafe: the spec says they are OPEN and that SET-A "says nothing about a real device"; log 5, log 6). -/
def Params.setA : Params where
  bootDone := true
  setpointReqReserved := true
  ovfPolicy := .refuse
  tIdle := 1
  adcShift := 16
  pwmShift := 16
  gainBits := 32
  offsetBits := 32
  cal :=
    { vset := ⟨10240, 10⟩, iset := ⟨10240, 10⟩, vread := ⟨102400, -16⟩, iread := ⟨102400, -16⟩,
      refread := ⟨65536, 0⟩, tread := ⟨65536, 0⟩, unused6 := ⟨0, 0⟩, unused7 := ⟨0, 0⟩ }
  adcBits := 10
  adcInput := ⟨0, 1, 2, 3, 4⟩
  otThresh := 4800
  pwmPeriod := 4095
  maxPower := 10000
  maxdispP := 0

/-- A codec that has accumulated nothing (10_state.md R25); the buffer's bytes are unspecified by the spec and 0 here
(DESIGN CHOICE; log 8). -/
def Codec.reset : Codec := ⟨Vector.replicate 16 0, 0⟩

/-- A reading at reset: never published, and of the `ADC_BITS + 4` bits of its register (10_state.md R18) any value. -/
def Reading.reset (j : Nat) : Reading := ⟨Config.readingAtReset j % 2 ^ (Params.setA.adcBits + 4), false⟩

/-- The profile registers of a kind at reset (0 for V, 1 for I): not written, any value. -/
def Profile.reset (k : Nat) : Profile :=
  ⟨false, Config.dpAtReset k, Config.maxdispAtReset k, Config.rbmulAtReset k, Config.spmulAtReset k⟩

/-- A compare register at reset (0 for V, 1 for I): any value of its range 0 to `PWM_PERIOD` (10_state.md R19). -/
def compareReset (k : Nat) : Nat := Config.compareAtReset k % (Params.setA.pwmPeriod + 1)

/-- The machine right after reset: 10_state.md R25, its registers without a value as free values (R26, log 7), the setpoint
record as programs P1 and F1 of 95_test_vectors.md start (log 5, log 6). -/
def State.reset : State where
  par := Params.setA
  rxM := Codec.reset
  rxS := Codec.reset
  profV := Profile.reset 0
  profI := Profile.reset 1
  dpP := Config.dpPAtReset
  scanIdx := .reference
  accSum := 0
  accCnt := 0
  raw := ⟨Reading.reset 0, Reading.reset 1, Reading.reset 2, Reading.reset 3, Reading.reset 4⟩
  otLatch := false
  outEn := false
  pwmCmpV := compareReset 0
  pwmCmpI := compareReset 1
  spV := 0
  spI := 0
  spOvp := 25600
  spOcp := 25600
  emitted := []
  diagCount := 0
  script := []

end Sys2Proof.Machine
end

