-- ==== Sys2Proof/Machine/Ops.lean ====
section
/-!
DEFINITION. The named operations over the registers and the ports, and how an abnormal condition is taken. The block "takes
no traps, saves no state and has no handler addresses" (60_exceptions.md R166): taking a condition is the register writes of
R156 to R161, and there is no return operation (R167).
-/
namespace Sys2Proof.Machine

/-- The outcome of one event. -/
abbrev Out := Host.Outcome State Fault Refusal

/-- One operation after another inside one event: a stop ends the whole event (44_client_frames.md R138, "then the whole
event has no meaning in the model"). -/
def andThen (o : Out) (f : State → Out) : Out :=
  match o with
  | .next s => f s
  | .fault r => .fault r
  | .refused r => .refused r

/-- Uses a computed value, or `raise Refused` when there is none (00_scope.md section 5). -/
def orRefuse {α : Type} (v : Except Refusal α) (f : α → Out) : Out :=
  match v with
  | .ok a => f a
  | .error r => .refused r

/-- `emit PORT(v)`: one value leaves an output port (00_scope.md section 5). -/
def emit (e : Emission) (s : State) : State := { s with emitted := s.emitted ++ [e] }

/-- `deliver X`: a result is handed to the environment's call. -/
def deliver (r : Result) (s : State) : State := emit (.result r) s

/-! ### The receive accumulators -/

/-- The codec at one end of the link. -/
def codecAt (e : End) (s : State) : Codec :=
  match e with
  | .slave => s.rxS
  | .master => s.rxM

/-- Replaces the codec at one end. -/
def setCodec (e : End) (c : Codec) (s : State) : State :=
  match e with
  | .slave => { s with rxS := c }
  | .master => { s with rxM := c }

/-- `RXBUF[0..RXLEN]`, the bytes accumulated so far (40_codec_ops.md R72). -/
def accumulated (c : Codec) : List Byte := c.rxbuf.toList.take c.rxlen

/-- `RXBUF[RXLEN] <- b ; RXLEN <- RXLEN + 1` (40_codec_ops.md R72). -/
def pushByte (b : Byte) (c : Codec) : Codec := ⟨c.rxbuf.setIfInBounds c.rxlen b, c.rxlen + 1⟩

/-- `RXLEN <- 0`: what taking INVALID and IDLE does, and what follows a Complete verdict (40_codec_ops.md R72, R76;
60_exceptions.md R156, R158). The bytes stay in `RXBUF`, without meaning. -/
def discardBuffer (c : Codec) : Codec := ⟨c.rxbuf, 0⟩

/-! ### Readings, profiles, compare registers -/

/-- `RAW[j]`. -/
def readingAt (j : Channel) (r : RawStore) : Reading :=
  match j with
  | .reference => r.reference
  | .current => r.current
  | .voltage => r.voltage
  | .loopback => r.loopback
  | .temperature => r.temperature

/-- `RAW[j] <- v`, published (42_adc_scheduler.md R107). -/
def publish (j : Channel) (v : Nat) (r : RawStore) : RawStore :=
  match j with
  | .reference => { r with reference := ⟨v, true⟩ }
  | .current => { r with current := ⟨v, true⟩ }
  | .voltage => { r with voltage := ⟨v, true⟩ }
  | .loopback => { r with loopback := ⟨v, true⟩ }
  | .temperature => { r with temperature := ⟨v, true⟩ }

/-- `(SCAN_IDX + 1) mod 5` (42_adc_scheduler.md R110). -/
def nextChannel : Channel → Channel
  | .reference => .current
  | .current => .voltage
  | .voltage => .loopback
  | .loopback => .temperature
  | .temperature => .reference

/-- `CAL[i]` for a read quantity (10_state.md R15). -/
def readCal (i : ReadCal) (c : CalTable) : CalEntry :=
  match i with
  | .vread => c.vread
  | .iread => c.iread
  | .refread => c.refread
  | .tread => c.tread

/-- `CAL[i]` for a set quantity (10_state.md R15). -/
def setCal (i : SetCal) (c : CalTable) : CalEntry :=
  match i with
  | .vset => c.vset
  | .iset => c.iset

/-- The calibration entry of a regulation channel: `CAL_VSET` or `CAL_ISET` (43_pwm_driver.md R126). -/
def setCalOfQuantity : Quantity → SetCal
  | .voltage => .vset
  | .current => .iset

/-- The profile registers of kind k. -/
def profileAt (k : Quantity) (s : State) : Profile :=
  match k with
  | .voltage => s.profV
  | .current => s.profI

/-- Writes the profile registers of kind k (41_unit_converter.md R86). -/
def setProfile (k : Quantity) (p : Profile) (s : State) : State :=
  match k with
  | .voltage => { s with profV := p }
  | .current => { s with profI := p }

/-- Writes `PWM_CMP_V` or `PWM_CMP_I` and drives its port (43_pwm_driver.md R126). -/
def loadCompare (k : Quantity) (cmp : Nat) (s : State) : State :=
  match k with
  | .voltage => emit (.pwmCmpV cmp) { s with pwmCmpV := cmp }
  | .current => emit (.pwmCmpI cmp) { s with pwmCmpI := cmp }

/-! ### Taking the other conditions -/

/-- POWERLIMIT: nothing changes and a diagnostic of unspecified content is emitted (60_exceptions.md R160). -/
def takePowerLimit (s : State) : State :=
  emit (.diag (Config.diagText s.diagCount)) { s with diagCount := s.diagCount + 1 }

/-- OVERTEMP: `OT_LATCH <- 1 ; OUT_EN <- 0`, and port `out_en` is driven to 0 (60_exceptions.md R161,
42_adc_scheduler.md R112). -/
def takeOvertemp (s : State) : State := emit (.outEn false) { s with otLatch := true, outEn := false }

end Sys2Proof.Machine
end

