-- ==== Sys2Proof/Machine/Operands.lean ====
section
/-!
DEFINITION. The values operations compute from their operands: frames and verdicts (40_codec_ops.md R67, R69), profiles and
conversions (41_unit_converter.md R86 to R93), the fields of a Setpoint request (30_encoding.md R51). Pure functions; a value
the spec does not give is an error with the refusal's own name.
-/
namespace Sys2Proof.Machine

/-! ### Constants the spec fixes (00_scope.md section 4) -/

/-- `MAX_PAYLOAD`. -/
def maxPayload : Nat := 14

/-- `PCT_FULL`, percent-units at 100 %. -/
def pctFull : Nat := 25600

/-- `DISP_MAX`, the largest display value. -/
def dispMax : Nat := 9999

/-- `OVERSAMPLE`, samples of one burst. -/
def oversample : Nat := 8192

/-- `AVG_SHIFT`. -/
def avgShift : Nat := 9

/-- `CC_MARGIN`, percent-units. -/
def ccMargin : Int := 64

/-! ### Frames -/

/-- The frame `ENCODE` builds: `header ++ payload ++ checksum` with `N = len(payload) + 1` (40_codec_ops.md R67). -/
def buildFrame (cls : BitVec 4) (payload : List Byte) : List Byte :=
  let body := headerByte cls (BitVec.ofNat 4 (payload.length + 1)) :: payload
  body ++ [cksum body]

/-- `DECODE(buf)` (40_codec_ops.md R69): N = 0 before length, length before checksum (60_exceptions.md R165). -/
def verdictOf (buf : List Byte) : Verdict :=
  match buf with
  | [] => .incomplete
  | h :: _ =>
    let n := (headerLen h).toNat
    if n = 0 then .invalid
    else if buf.length < n + 1 then .incomplete
    else if n + 1 < buf.length then .invalid
    else if buf[n]? = some (cksum (buf.take n)) then .complete (headerClass h) ((buf.take n).drop 1)
    else .invalid

/-- The `onoff`, `voltage` and `current` of a Setpoint request's payload: 6 bytes, or 5 without the reserved byte when
`SETPOINT_REQ_RESERVED` = false; the reserved byte is not looked at (44_client_frames.md R138). -/
def setpointFields (reserved : Bool) (payload : List Byte) : Option (Byte × Half × Half) :=
  match reserved, payload with
  | true, [o, vh, vl, ih, il, _] => some (o, unBE16 vh vl, unBE16 ih il)
  | false, [o, vh, vl, ih, il] => some (o, unBE16 vh vl, unBE16 ih il)
  | _, _ => none

/-- The payload of a Setpoint request (30_encoding.md R51, 44_client_frames.md R148). -/
def setpointPayload (reserved : Bool) (onoff : Bool) (v i : Half) : List Byte :=
  boolByte onoff :: (be16 v ++ be16 i ++ if reserved then [0] else [])

/-! ### Profiles -/

/-- The decimal places of a nominal `num / den`: the largest d in 0 to 3 with `nominal * 10^d <= 9999`
(41_unit_converter.md R86, D11). -/
def decimalPlaces (num den : Nat) : Option (BitVec 2) :=
  if num * 1000 ≤ dispMax * den then some 3
  else if num * 100 ≤ dispMax * den then some 2
  else if num * 10 ≤ dispMax * den then some 1
  else if num ≤ dispMax * den then some 0
  else none

/-- `rhu(a / b)`, round half up of a non-negative quotient (00_scope.md section 5). -/
def rhuDiv (a b : Nat) : Nat := (2 * a + b) / (2 * b)

/-- The profile of a display full scale `NS` with `dp` decimal places (41_unit_converter.md R86). -/
def profileOf (dp : BitVec 2) (ns : Nat) : Profile where
  written := true
  dp := dp
  maxdisp := BitVec.ofNat 14 ns
  rbmul := BitVec.ofNat 32 (rhuDiv (65536 * ns) pctFull)
  spmul := BitVec.ofNat 32 (rhuDiv (65536 * pctFull) ns)

/-- `MKPROFILE`'s values for the rating `num / den` (41_unit_converter.md R86): refused for a nominal of 0 or less, above
9999, or whose `NS` is no integer. -/
def deriveProfile (num : Int) (den : Nat) : Except Refusal Profile :=
  if num ≤ 0 then .error .nominalRange
  else
    match decimalPlaces num.toNat den with
    | none => .error .nominalRange
    | some dp =>
      if num.toNat * 10 ^ dp.toNat % den = 0 then .ok (profileOf dp (num.toNat * 10 ^ dp.toNat / den))
      else .error .nominalRange

/-- `DP[P] = DP[V] + DP[I]` once both are written; before that it keeps what it holds (41_unit_converter.md R86). -/
def powerPlaces (v i : Profile) (old : BitVec 3) : BitVec 3 :=
  if v.written && i.written then v.dp.setWidth 3 + i.dp.setWidth 3 else old

/-! ### The display half of the converter -/

/-- `(x * mul + 32768) >> 16`, "all in unsigned 32 bits" (41_unit_converter.md R87, R88). -/
def scale16 (x mul : Word) : Half := ((x * mul + 32768) >>> 16).setWidth 16

/-- The profile registers a conversion of kind k reads; power has none (41_unit_converter.md R91). Before `MKPROFILE` they
hold free values, and the conversion computes from those (log 7). -/
def profileFor (k : Kind) (s : State) : Except Refusal Profile :=
  match k with
  | .power => .error .powerKind
  | .of q => .ok (profileAt q s)

/-- `D2P` with the profile `p` (41_unit_converter.md R87); `wrap32` takes the wrapped product (D15). -/
def displayToPercent (pol : OvfPolicy) (p : Profile) (display : Word) : Except Refusal Half :=
  if pol = .refuse ∧ p.maxdisp.toNat < display.toNat then .error .displayRange
  else .ok (scale16 display p.spmul)

/-- `P2D` with the profile `p` (41_unit_converter.md R88); `wrap32` takes the wrapped product (D15). -/
def percentToDisplay (pol : OvfPolicy) (p : Profile) (percent : Word) : Except Refusal Half :=
  if pol = .refuse ∧ pctFull < percent.toNat then .error .percentRange
  else .ok (scale16 percent p.rbmul)

/-- `D2P(k, display)` in a state. -/
def d2pValue (k : Kind) (display : Word) (s : State) : Except Refusal Half :=
  match profileFor k s with
  | .ok p => displayToPercent s.par.ovfPolicy p display
  | .error r => .error r

/-- `P2D(k, percent)` in a state. -/
def p2dValue (k : Kind) (percent : Word) (s : State) : Except Refusal Half :=
  match profileFor k s with
  | .ok p => percentToDisplay s.par.ovfPolicy p percent
  | .error r => .error r

/-! ### The gain/offset half of the converter -/

/-- `t = gain * x + 2^(shift-1)` and its check against 2^32 (41_unit_converter.md R92, R93): at or above it, refused, or
reduced modulo 2^32 under `wrap32` (D15). `2^shift / 2` is `1 << (shift - 1)` for every legal shift (log 19). -/
def calProduct (pol : OvfPolicy) (gain x shift : Nat) : Except Refusal Nat :=
  let t := gain * x + 2 ^ shift / 2
  if t < 2 ^ 32 then .ok t
  else
    match pol with
    | .refuse => .error .productOverflow
    | .wrap32 => .ok (t % 2 ^ 32)

/-- `(t >> shift) + offset`, a signed integer: the shift first, then the offset (D16). -/
def affine (pol : OvfPolicy) (c : CalEntry) (x shift : Nat) : Except Refusal Int :=
  match calProduct pol c.gain x shift with
  | .ok t => .ok (((t >>> shift : Nat) : Int) + c.offset)
  | .error r => .error r

/-- `RAW2PCT` of the reading `raw` with entry `i` (41_unit_converter.md R92): clamped at 0, refused above 65535. -/
def rawToPercent (par : Params) (i : ReadCal) (raw : Nat) : Except Refusal Half :=
  match affine par.ovfPolicy (readCal i par.cal) raw par.adcShift with
  | .error r => .error r
  | .ok u => if u ≤ 65535 then .ok (BitVec.ofNat 16 u.toNat) else .error .percentOverflow

/-- `RAW2PCT(i, RAW[j])` in a state (41_unit_converter.md R92). Before its first publication `RAW[j]` holds a free value,
and the conversion computes from it (log 7). -/
def raw2pctValue (i : ReadCal) (j : Channel) (s : State) : Except Refusal Half :=
  rawToPercent s.par i (readingAt j s.raw).value

/-- `PCT2PWM(i, percent)` (41_unit_converter.md R93): refused for a code outside 0 to `PWM_PERIOD`, else
`PWM_PERIOD - code`. -/
def percentToPwm (par : Params) (i : SetCal) (percent : Nat) : Except Refusal Nat :=
  match affine par.ovfPolicy (setCal i par.cal) percent par.pwmShift with
  | .error r => .error r
  | .ok code =>
    if code < 0 ∨ (par.pwmPeriod : Int) < code then .error .pwmCodeRange
    else .ok (par.pwmPeriod - code.toNat)

/-! ### The ADC scheduler -/

/-- The published value of a finished burst, `(ACC_SUM + 256) >> 9` (42_adc_scheduler.md R109). -/
def average (sum : BitVec 32) : Nat := (sum.toNat + 256) >>> avgShift

/-- The power term of a request, `(v * i) >> 16`; the product fits 32 bits (44_client_frames.md R139). -/
def powerTerm (v i : Half) : Nat := (v.toNat * i.toNat) >>> 16

end Sys2Proof.Machine
end

