-- ==== Sys2Proof/Machine/Flags.lean ====
section
/-!
DEFINITION. The two flags `OT_LATCH` and `OUT_EN` (10_state.md R13) and the status byte composed from them
(30_encoding.md R54, 44_client_frames.md R141). The block has no condition codes.
-/
namespace Sys2Proof.Machine

/-- `OTEVAL(r)` (42_adc_scheduler.md R112): a reading below `OT_THRESH` takes OVERTEMP; one at or above it clears the latch
and leaves `OUT_EN` as it is (D24). -/
def evalInterlock (r : Nat) (s : State) : State :=
  if r < s.par.otThresh then takeOvertemp s else { s with otLatch := false }

/-- The output-enable a request gives under the latch (43_pwm_driver.md R128). -/
def gatedEnable (latch req : Bool) : Bool := if latch then false else req

/-- `OUTEN(req)` (43_pwm_driver.md R128): writes `OUT_EN` and drives its port; the request is not remembered (D24). -/
def driveEnable (req : Bool) (s : State) : State :=
  emit (.outEn (gatedEnable s.otLatch req)) { s with outEn := gatedEnable s.otLatch req }

/-- Constant current is inferred (44_client_frames.md R141): output on, no overtemperature, and setpoint minus readback at
least 64 percent-units, as a signed difference (D32). -/
def constantCurrent (outEn latch : Bool) (spV rv : Half) : Bool :=
  outEn && !latch && decide (ccMargin ≤ (spV.toNat : Int) - (rv.toNat : Int))

/-- The status byte (30_encoding.md R54): bit 7 overtemperature, bits 6:3 zero, bits 2:1 mode, bit 0 output-on. -/
def statusByte (outEn latch cc : Bool) : Byte :=
  BitVec.ofBool latch ++ (0 : BitVec 4) ++ (if cc then 0b10#2 else 0b00#2) ++ BitVec.ofBool outEn

/-- The status byte of a response composed in a state with the voltage readback `rv` (44_client_frames.md R141). -/
def responseStatus (rv : Half) (s : State) : Byte :=
  statusByte s.outEn s.otLatch (constantCurrent s.outEn s.otLatch s.spV rv)

end Sys2Proof.Machine
end

