-- ==== Sys2Proof/Machine/Adc.lean ====
section
/-!
DEFINITION. ADCEVT, OTEVAL: the oversampling burst scheduler and the thermal interlock (42_adc_scheduler.md).
-/
namespace Sys2Proof.Machine

/-- The end of a burst, with the last code already in `ACC_SUM` (R107, R109, R110): publish, clear the accumulator, advance,
drive `adc_sel`, and evaluate the interlock when the burst was the temperature channel's. -/
def finishBurst (s : State) : State :=
  let j := s.scanIdx
  let r := average s.accSum
  let t := emit (.adcSel (nextChannel j))
    { s with raw := publish j r s.raw, accSum := 0, accCnt := 0, scanIdx := nextChannel j }
  if j = .temperature then evalInterlock r t else t

/-- One completed conversion (R107): accumulate and count; at 8192 the burst is complete. -/
def accumulate (code : BitVec 19) (s : State) : State :=
  let t := { s with accSum := s.accSum + code.setWidth 32, accCnt := s.accCnt + 1 }
  if t.accCnt.toNat = oversample then finishBurst t else t

/-- ADCEVT(done, code), R107. A not-done event is ignored, whatever its code (R108). A code wider than `ADC_BITS` bits is
no operand (D21, V10; log 15). -/
def execAdcevt (done : Bool) (code : BitVec 19) (s : State) : Out :=
  if done = false then .next s
  else if 2 ^ s.par.adcBits ≤ code.toNat then .refused .codeTooWide
  else .next (accumulate code s)

/-- `r` is "the temperature reading just published to `RAW[4]`", the one operand of OTEVAL (R112). -/
def isPublishedTemperature (r : Word) (s : State) : Bool :=
  (readingAt .temperature s.raw).published && (readingAt .temperature s.raw).value == r.toNat

/-- OTEVAL(r), R112, as an event of its own (log 11): of the published reading `RAW[4]` it evaluates the interlock again. Any
other `r` is no publication, and the latch "is re-evaluated at every temperature publication [...] and at no other time;
between publications it keeps its value" (R112(c)): nothing happens. -/
def execOteval (r : Word) (s : State) : Out :=
  .next (if isPublishedTemperature r s then evalInterlock r.toNat s else s)

end Sys2Proof.Machine
end

