-- ==== Sys2Proof/Machine/Converter.lean ====
section
/-!
DEFINITION. MKPROFILE, D2P, P2D, RAW2PCT, PCT2PWM: the unit converter (41_unit_converter.md).
-/
namespace Sys2Proof.Machine

/-- MKPROFILE(k, num / den), R86: the profile registers of k, and DP[P] once both kinds are written. Run again for the same
k it writes them again (log 12). -/
def execMkprofile (k : Quantity) (num den : Word) (s : State) : Out :=
  orRefuse (deriveProfile num.toInt den.toNat) fun p =>
    let t := setProfile k p s
    .next { t with dpP := powerPlaces t.profV t.profI t.dpP }

/-- D2P(k, display), R87. -/
def execD2p (k : Kind) (display : Word) (s : State) : Out :=
  orRefuse (d2pValue k display s) fun v => .next (deliver (.percent v) s)

/-- P2D(k, percent), R88. -/
def execP2d (k : Kind) (percent : Word) (s : State) : Out :=
  orRefuse (p2dValue k percent s) fun v => .next (deliver (.display v) s)

/-- RAW2PCT(i, RAW[j]), R92. Which entry goes with which reading is the caller's choice (R94; log 12). -/
def execRaw2pct (i : ReadCal) (j : Channel) (s : State) : Out :=
  orRefuse (raw2pctValue i j s) fun v => .next (deliver (.percent v) s)

/-- PCT2PWM(i, percent), R93. -/
def execPct2pwm (i : SetCal) (percent : Word) (s : State) : Out :=
  orRefuse (percentToPwm s.par i percent.toNat) fun v => .next (deliver (.compare v) s)

end Sys2Proof.Machine
end

