-- ==== Sys2Proof/Machine/Pwm.lean ====
section
/-!
DEFINITION. PWMSET, OUTEN: the PWM setpoint driver (43_pwm_driver.md).
-/
namespace Sys2Proof.Machine

/-- PWMSET(k, percent), R126: convert with `CAL_VSET` or `CAL_ISET`, load the compare register, drive its port; refused with
nothing written when the conversion is refused. -/
def pwmSet (k : Quantity) (percent : Nat) (s : State) : Out :=
  orRefuse (percentToPwm s.par (setCalOfQuantity k) percent) fun cmp => .next (loadCompare k cmp s)

/-- PWMSET(k, percent) as a call, R126. -/
def execPwmset (k : Quantity) (percent : Word) (s : State) : Out := pwmSet k percent.toNat s

/-- OUTEN(req) as a call, R128. -/
def execOuten (req : Bool) (s : State) : Out := .next (driveEnable req s)

end Sys2Proof.Machine
end

