-- ==== Sys2Proof/Machine/Client.lean ====
section
/-!
DEFINITION. SETPOINT, OBJGET, SETREQ, OBJREQ: the environment's frame classes (44_client_frames.md), and the slave's
dispatch of a Complete verdict (R136).
-/
namespace Sys2Proof.Machine

/-- Emits on `tx_bytes` the frame of a class and a payload of at most 14 bytes: `ENCODE` called from inside another
operation (40_codec_ops.md R67). -/
def sendFrame (src : End) (cls : BitVec 4) (payload : List Byte) (s : State) : State :=
  emit (.txBytes src (buildFrame cls payload)) s

/-- "update changed fields", voltage: `if v != SP_V: SP_V <- v ; PWMSET(V, v)` (R138, D36). -/
def updateVoltage (v : Half) (s : State) : Out :=
  if v = s.spV then .next s else pwmSet .voltage v.toNat { s with spV := v }

/-- "update changed fields", current: `if i != SP_I: SP_I <- i ; PWMSET(I, i)` (R138, D36). -/
def updateCurrent (i : Half) (s : State) : Out :=
  if i = s.spI then .next s else pwmSet .current i.toNat { s with spI := i }

/-- Applies or rejects a request (R138, R139): above `MAX_POWER` the whole of it is rejected with a diagnostic, else the
changed fields are updated and then the enable is driven (43_pwm_driver.md R129). -/
def applySetpoint (onoff : Bool) (v i : Half) (s : State) : Out :=
  if s.par.maxPower < powerTerm v i then .next (takePowerLimit s)
  else andThen (updateVoltage v s) fun s => andThen (updateCurrent i s) fun s => .next (driveEnable onoff s)

/-- The response (R140): both readbacks and the status as one snapshot after the request's own effects. -/
def respond (s : State) : Out :=
  orRefuse (raw2pctValue .vread .voltage s) fun rv =>
    orRefuse (raw2pctValue .iread .current s) fun ri =>
      .next (sendFrame .slave 1 (responseStatus rv s :: (be16 rv ++ be16 ri ++ [0])) s)

/-- SETPOINT(payload), R138: a payload of another length is ignored (D38), an on/off byte above 1 refused, and otherwise
the request is applied or rejected and in both cases answered (D31). -/
def runSetpoint (payload : List Byte) (s : State) : Out :=
  match setpointFields s.par.setpointReqReserved payload with
  | none => .next s
  | some (onoff, v, i) =>
    if 1 < onoff.toNat then .refused .onoffUndefined
    else andThen (applySetpoint (onoff == 1) v i s) respond

/-- The value of a recognized object id (20_memory.md R31). -/
def objectValue (id : Byte) (s : State) : Option Half :=
  if id = 3 then some s.spOvp
  else if id = 4 then some s.spOcp
  else if id = 9 then some s.spV
  else if id = 10 then some s.spI
  else none

/-- The payload of an Object response (30_encoding.md R56): the id, and the value of a recognized one. -/
def objectPayload (id : Byte) (s : State) : List Byte :=
  match objectValue id s with
  | some x => id :: be16 x
  | none => [id]

/-- OBJGET(payload), R145: a payload of another length than 1 is ignored (D38); every id is answered. -/
def runObjget (payload : List Byte) (s : State) : State :=
  match payload with
  | [id] => sendFrame .slave 8 (objectPayload id s) s
  | _ => s

/-- The dispatch of a Complete verdict, in the same event (R136): on the slave SETPOINT for class 1, OBJGET for class 8,
nothing for another class (D29); on the master the consumer is the orchestrator, outside the block (R150). -/
def dispatch (dst : End) (cls : BitVec 4) (payload : List Byte) (s : State) : Out :=
  match dst with
  | .master => .next s
  | .slave =>
    if cls = 1 then runSetpoint payload s
    else if cls = 8 then .next (runObjget payload s)
    else .next s

/-- SETPOINT as a call of its own, R138. -/
def execSetpoint (payload : List Byte) (s : State) : Out := runSetpoint payload s

/-- OBJGET as a call of its own, R145. -/
def execObjget (payload : List Byte) (s : State) : Out := .next (runObjget payload s)

/-- SETREQ(onoff, dispV, dispI), R148: both display values to percent, then the request frame; without the reserved byte
when `SETPOINT_REQ_RESERVED` = false. -/
def execSetreq (onoff : Bool) (dispV dispI : Word) (s : State) : Out :=
  orRefuse (d2pValue (.of .voltage) dispV s) fun v =>
    orRefuse (d2pValue (.of .current) dispI s) fun i =>
      .next (sendFrame .master 1 (setpointPayload s.par.setpointReqReserved onoff v i) s)

/-- OBJREQ(id), R149. -/
def execObjreq (id : Byte) (s : State) : Out := .next (sendFrame .master 8 [id] s)

end Sys2Proof.Machine
end

