-- ==== Sys2Proof/Machine/Codec.lean ====
section
/-!
DEFINITION. CKSUM, ENCODE, DECODE, RXBYTE, RXIDLE: the frame codec (40_codec_ops.md).
-/
namespace Sys2Proof.Machine

/-- CKSUM(s), R66: total on all byte strings; the checksum is handed to the caller. -/
def execCksum (bs : List Byte) (s : State) : Out := .next (deliver (.checksum (cksum bs)) s)

/-- ENCODE(class, payload), R67: refused when the class does not fit four bits or the payload is longer than 14 bytes; else
the frame leaves on `tx_bytes` and is handed to the caller. -/
def execEncode (src : End) (cls : Half) (payload : List Byte) (s : State) : Out :=
  if 15 < cls.toNat ∨ maxPayload < payload.length then .refused .encodeOperands
  else
    .next (deliver (.frame (buildFrame (cls.setWidth 4) payload)) (sendFrame src (cls.setWidth 4) payload s))

/-- DECODE(buf), R69: the verdict is handed to the caller. -/
def execDecode (buf : List Byte) (s : State) : Out := .next (deliver (.verdict (verdictOf buf)) s)

/-- RXBYTE(b), R72: accumulate, apply DECODE; a verdict empties the buffer and leaves on `frame_out`, and a Complete one is
dispatched within the same event (20_memory.md R38). -/
def receiveByte (dst : End) (b : Byte) (s : State) : Out :=
  let c := pushByte b (codecAt dst s)
  match verdictOf (accumulated c) with
  | .incomplete => .next (setCodec dst c s)
  | .invalid => .next (emit (.frameOut dst .invalid) (setCodec dst (discardBuffer c) s))
  | .complete cls p =>
    dispatch dst cls p (emit (.frameOut dst (.complete cls p)) (setCodec dst (discardBuffer c) s))

/-- RXBYTE as an event, R72. -/
def execRxbyte (dst : End) (b : Byte) (s : State) : Out := receiveByte dst b s

/-- RXIDLE, R76: `RXLEN <- 0`, no verdict. -/
def execRxidle (dst : End) (s : State) : Out := .next (setCodec dst (discardBuffer (codecAt dst s)) s)

/-- `RXF b0 ... bk`: the bytes of a whole frame, one RXBYTE each with nothing between (30_encoding.md R61). -/
def receiveBytes (dst : End) (bytes : List Byte) (s : State) : Out :=
  match bytes with
  | [] => .next s
  | b :: bs => andThen (receiveByte dst b s) (receiveBytes dst bs)

end Sys2Proof.Machine
end

