-- ==== Sys2Proof/Machine/Frames.lean ====
section
/-!
DEFINITION. The frame rows of the table as events: the frame arrives, byte by byte, at the end its direction names
(30_encoding.md R51 to R56, R61; log 3). Whatever the receiver had accumulated stands before it (40_codec_ops.md R74).
-/
namespace Sys2Proof.Machine

/-- FRAME.HDR, R46, R47: header and the N bytes after it, in either direction. -/
def execFrameHdr (dst : End) (cls n : BitVec 4) (body : List Byte) (s : State) : Out :=
  receiveBytes dst (headerByte cls n :: body) s

/-- SETPOINT.REQ, R51, at the slave. -/
def execSetpointReq (onoff : Bool) (v i : Half) (k : Byte) (s : State) : Out :=
  receiveBytes .slave (0x17 :: boolByte onoff :: (be16 v ++ be16 i ++ [0, k])) s

/-- SETPOINT.REQ.ALT, R51, at the slave. -/
def execSetpointReqAlt (onoff : Bool) (v i : Half) (k : Byte) (s : State) : Out :=
  receiveBytes .slave (0x16 :: boolByte onoff :: (be16 v ++ be16 i ++ [k])) s

/-- SETPOINT.RSP, R52, at the master. -/
def execSetpointRsp (status : Byte) (v i : Half) (k : Byte) (s : State) : Out :=
  receiveBytes .master (0x17 :: status :: (be16 v ++ be16 i ++ [0, k])) s

/-- OBJGET.REQ, R55, at the slave. -/
def execObjgetReq (id k : Byte) (s : State) : Out := receiveBytes .slave [0x82, id, k] s

/-- OBJGET.RSP.DATA, R56, at the master. -/
def execObjgetRspData (id : Byte) (x : Half) (k : Byte) (s : State) : Out :=
  receiveBytes .master (0x84 :: id :: (be16 x ++ [k])) s

/-- OBJGET.RSP.NODATA, R56, at the master. -/
def execObjgetRspNodata (id k : Byte) (s : State) : Out := receiveBytes .master [0x82, id, k] s

end Sys2Proof.Machine
end

