-- ==== Sys2Proof/Machine/Dispatch.lean ====
section
/-!
DEFINITION. The meaning of each event: one arm per row of the opcode table.
-/
namespace Sys2Proof.Machine

-- The frame rows (30_encoding.md R46 to R56), then the operations (R59), in the table's order.
def exec (i : Instr) (s : State) : Host.Outcome State Fault Refusal :=
  match i with
  | .frameHdr dst cls n body => Sys2Proof.Machine.execFrameHdr dst cls n body s
  | .setpointReq onoff v c k => Sys2Proof.Machine.execSetpointReq onoff v c k s
  | .setpointReqAlt onoff v c k => Sys2Proof.Machine.execSetpointReqAlt onoff v c k s
  | .setpointRsp status v c k => Sys2Proof.Machine.execSetpointRsp status v c k s
  | .objgetReq id k => Sys2Proof.Machine.execObjgetReq id k s
  | .objgetRspData id x k => Sys2Proof.Machine.execObjgetRspData id x k s
  | .objgetRspNodata id k => Sys2Proof.Machine.execObjgetRspNodata id k s
  | .cksum bs => Sys2Proof.Machine.execCksum bs s
  | .encode src cls payload => Sys2Proof.Machine.execEncode src cls payload s
  | .decode buf => Sys2Proof.Machine.execDecode buf s
  | .rxbyte dst b => Sys2Proof.Machine.execRxbyte dst b s
  | .rxidle dst => Sys2Proof.Machine.execRxidle dst s
  | .mkprofile k num den => Sys2Proof.Machine.execMkprofile k num den s
  | .d2p k display => Sys2Proof.Machine.execD2p k display s
  | .p2d k percent => Sys2Proof.Machine.execP2d k percent s
  | .raw2pct c j => Sys2Proof.Machine.execRaw2pct c j s
  | .pct2pwm c percent => Sys2Proof.Machine.execPct2pwm c percent s
  | .adcevt done code => Sys2Proof.Machine.execAdcevt done code s
  | .oteval r => Sys2Proof.Machine.execOteval r s
  | .pwmset k percent => Sys2Proof.Machine.execPwmset k percent s
  | .outen req => Sys2Proof.Machine.execOuten req s
  | .setpoint payload => Sys2Proof.Machine.execSetpoint payload s
  | .objget payload => Sys2Proof.Machine.execObjget payload s
  | .setreq onoff dispV dispI => Sys2Proof.Machine.execSetreq onoff dispV dispI s
  | .objreq id => Sys2Proof.Machine.execObjreq id s

end Sys2Proof.Machine
end

