-- ==== Sys2Proof/WellFormed.lean ====
section
/-!
DEFINITION. Which instructions are well formed: what the operand types leave unsaid of the table's rows. A generic frame
that has the shape of a named row for its direction is that row, not FRAME.HDR (30_encoding.md R62: direction is the extra
input).
-/
namespace Sys2Proof

/-- A frame (header `h`, then `body`) that has one of the named shapes of 30_encoding.md R51, R52, R55, R56 in the
direction of `dst`: the fixed bits of the table's encodings (the letters are free, so an Object response may carry any
id). -/
def namedShape : End → Byte → List Byte → Bool
  | .slave, h, body =>
    (h == 0x17 && body.length == 7 && body[0]?.any (· ≤ 1) && body[5]? == some 0) ||
    (h == 0x16 && body.length == 6 && body[0]?.any (· ≤ 1)) ||
    (h == 0x82 && body.length == 2)
  | .master, h, body =>
    (h == 0x17 && body.length == 7 && body[5]? == some 0) ||
    (h == 0x84 && body.length == 4) ||
    (h == 0x82 && body.length == 2)

/-- The checks: a frame's body has N bytes and no named shape; a DECODE buffer has at most 16 bytes (R69), a dispatched
payload at most 14 (R46); a nominal's denominator is not 0; list operands fit the script's length fields (log 2). -/
def Instr.wellFormed : Instr → Bool
  | .frameHdr dst cls n body => body.length == n.toNat && !namedShape dst (headerByte cls n) body
  | .setpointReq _ _ _ _ => true
  | .setpointReqAlt _ _ _ _ => true
  | .setpointRsp _ _ _ _ => true
  | .objgetReq _ _ => true
  | .objgetRspData _ _ _ => true
  | .objgetRspNodata _ _ => true
  | .cksum bs => decide (bs.length < 65536)
  | .encode _ _ payload => decide (payload.length < 256)
  | .decode buf => decide (buf.length ≤ 16)
  | .rxbyte _ _ => true
  | .rxidle _ => true
  | .mkprofile _ _ den => den != 0
  | .d2p _ _ => true
  | .p2d _ _ => true
  | .raw2pct _ _ => true
  | .pct2pwm _ _ => true
  | .adcevt _ _ => true
  | .oteval _ => true
  | .pwmset _ _ => true
  | .outen _ => true
  | .setpoint payload => decide (payload.length ≤ 14)
  | .objget payload => decide (payload.length ≤ 14)
  | .setreq _ _ _ => true
  | .objreq _ => true

end Sys2Proof
end

