-- ==== Sys2Proof/Machine/Step.lean ====
section
/-!
DEFINITION. One step: the next event of the script is delivered, as one indivisible step (20_memory.md R38).
-/
namespace Sys2Proof.Machine

/-- One step. Before the bootstrap's hand-off nothing runs (70_reset_and_hazards.md R186). With no event to deliver nothing
happens. Otherwise the front of the script is decoded, checked and taken off, and its event runs. -/
def step (s : State) : Host.Outcome State Fault Refusal :=
  if s.par.bootDone = false then .fault .ispFail
  else
    match s.script with
    | [] => .next s
    | tag :: bytes =>
      match decode (tag :: bytes) with
      | .error e => .refused (.undecodable e)
      | .ok (i, rest) =>
        if i.wellFormed then exec i { s with script := rest } else .refused .illFormed

/-- `s` with the event of a table word as the next of the script; the hand-off is done in every state reset leads to, so
nothing else is needed for the very next step to run it (log 3). -/
def State.withFetchWord (s : State) (nbits w : Nat) : State :=
  { s with script := tableScript nbits w ++ s.script }

end Sys2Proof.Machine
end

