-- ==== Sys2Proof/Safety.lean ====
section
/-!
DEFINITION. What counts as a legal device and a good state: the terms the statements use.
-/
namespace Sys2Proof.Machine

/-- One calibration entry fits its widths: an unsigned gain of `GAIN_BITS` bits, a signed offset of `OFFSET_BITS` bits
(10_state.md R15). -/
abbrev LegalEntry (gainBits offsetBits : Nat) (c : CalEntry) : Prop :=
  c.gain < 2 ^ gainBits ∧ -(2 ^ (offsetBits - 1) : Int) ≤ c.offset ∧ c.offset < 2 ^ (offsetBits - 1)

/-- The parameters of a device 00_scope.md section 4 admits: shifts of at least 1, 1 to 19 bits of ADC code, a positive PWM
period, calibration entries within their widths. -/
abbrev LegalParams (p : Params) : Prop :=
  1 ≤ p.adcShift ∧ 1 ≤ p.pwmShift ∧ 1 ≤ p.adcBits ∧ p.adcBits ≤ 19 ∧ 1 ≤ p.pwmPeriod ∧
  LegalEntry p.gainBits p.offsetBits p.cal.vset ∧ LegalEntry p.gainBits p.offsetBits p.cal.iset ∧
  LegalEntry p.gainBits p.offsetBits p.cal.vread ∧ LegalEntry p.gainBits p.offsetBits p.cal.iread ∧
  LegalEntry p.gainBits p.offsetBits p.cal.refread ∧ LegalEntry p.gainBits p.offsetBits p.cal.tread ∧
  LegalEntry p.gainBits p.offsetBits p.cal.unused6 ∧ LegalEntry p.gainBits p.offsetBits p.cal.unused7

/-- The receiver between events (40_codec_ops.md R73): `RXLEN` is at most 15, and with bytes in the buffer its header
announces at least one byte and no fewer than have come. -/
abbrev ReceiverOk (c : Codec) : Prop :=
  c.rxlen ≤ 15 ∧
  (1 ≤ c.rxlen → 1 ≤ (headerLen c.rxbuf[0]).toNat ∧ c.rxlen ≤ (headerLen c.rxbuf[0]).toNat)

/-- The safety invariant of the power stage (60_exceptions.md R163): `OUT_EN` = 1 implies `OT_LATCH` = 0. -/
abbrev Interlocked (s : State) : Prop := s.outEn = true → s.otLatch = false

/-- The accumulator between events (10_state.md R17): at most 8191 samples, and a sum no larger than that many largest
codes. -/
abbrev AccumulatorOk (s : State) : Prop :=
  s.accCnt.toNat ≤ 8191 ∧ s.accSum.toNat ≤ s.accCnt.toNat * (2 ^ s.par.adcBits - 1)

/-- A reading is a number of `ADC_BITS + 4` bits (10_state.md R18), and a published one at most `2^(ADC_BITS+4) - 16`
(42_adc_scheduler.md R109). -/
abbrev ReadingOk (adcBits : Nat) (r : Reading) : Prop :=
  r.value < 2 ^ (adcBits + 4) ∧ (r.published = true → r.value + 16 ≤ 2 ^ (adcBits + 4))

/-- Every reading is in range. -/
abbrev ReadingsOk (s : State) : Prop :=
  ReadingOk s.par.adcBits s.raw.reference ∧ ReadingOk s.par.adcBits s.raw.current ∧
  ReadingOk s.par.adcBits s.raw.voltage ∧ ReadingOk s.par.adcBits s.raw.loopback ∧
  ReadingOk s.par.adcBits s.raw.temperature

/-- The compare registers hold 0 to `PWM_PERIOD` (10_state.md R19). -/
abbrev CompareOk (s : State) : Prop := s.pwmCmpV ≤ s.par.pwmPeriod ∧ s.pwmCmpI ≤ s.par.pwmPeriod

/-- The latch is set exactly when a temperature reading has been published and the last one is below the threshold
(42_adc_scheduler.md R112(c): it is re-evaluated at every temperature publication and at no other time). -/
abbrev LatchFollows (s : State) : Prop :=
  s.otLatch = (s.raw.temperature.published && decide (s.raw.temperature.value < s.par.otThresh))

/-- A written profile is the one its own display full scale gives, 1 to 9999 (10_state.md R14, 41_unit_converter.md R86). -/
abbrev ProfileOk (p : Profile) : Prop :=
  1 ≤ p.maxdisp.toNat ∧ p.maxdisp.toNat ≤ 9999 ∧ p = profileOf p.dp p.maxdisp.toNat

/-- Both profiles are legal where written, and `DP[P]` is the sum of their decimal places once both are
(41_unit_converter.md R86, R91). -/
abbrev ProfilesOk (s : State) : Prop :=
  (s.profV.written = true → ProfileOk s.profV) ∧ (s.profI.written = true → ProfileOk s.profI) ∧
  (s.profV.written = true → s.profI.written = true → s.dpP.toNat = s.profV.dp.toNat + s.profI.dp.toNat)

/-- A good state of a legal device. -/
abbrev Good (s : State) : Prop :=
  LegalParams s.par ∧ ReceiverOk s.rxM ∧ ReceiverOk s.rxS ∧ Interlocked s ∧ LatchFollows s ∧ AccumulatorOk s ∧
  ReadingsOk s ∧ CompareOk s ∧ ProfilesOk s

/-! ### Terms of the statements -/

/-- The events of a list, one after another, as one script with nothing between them. -/
def runAll : List Instr → State → Out
  | [], s => .next s
  | i :: is, s => andThen (exec i s) (runAll is)

/-- The byte sum modulo 256, summed as natural numbers (30_encoding.md R49). -/
def byteSum (bs : List Byte) : Byte := BitVec.ofNat 8 (bs.map BitVec.toNat).sum

/-- A 16-bit value as its two wire bytes, by division (20_memory.md R33). -/
def bytePair (v : Half) : List Byte := [BitVec.ofNat 8 (v.toNat / 256), BitVec.ofNat 8 (v.toNat % 256)]

/-- The frame of a class and a payload, by arithmetic on numbers (30_encoding.md R46). -/
def frameOf (cls : Nat) (payload : List Byte) : List Byte :=
  let body := BitVec.ofNat 8 (16 * cls + (payload.length + 1)) :: payload
  body ++ [byteSum body]

/-- The status byte as a sum of its bits' weights (30_encoding.md R54): 1 output on, 4 mode 0b10, 128 overtemperature. -/
def statusOf (outEn latch cc : Bool) : Byte := BitVec.ofNat 8 (outEn.toNat + 4 * cc.toNat + 128 * latch.toNat)

/-- Constant current is inferred for a voltage setpoint and a readback (44_client_frames.md R141). -/
def infersCc (outEn latch : Bool) (spV rv : Half) : Bool :=
  outEn && !latch && decide ((64 : Int) ≤ (spV.toNat : Int) - (rv.toNat : Int))

/-- The payload of a Setpoint request in the form the device expects: six bytes, the last any reserved byte, or five when
`SETPOINT_REQ_RESERVED` = false (30_encoding.md R51; 93_implementation_defined.md U1). -/
def IsRequestPayload (reserved : Bool) (onoff : Byte) (v i : Half) (payload : List Byte) : Prop :=
  (reserved = true ∧ ∃ r : Byte, payload = onoff :: (bytePair v ++ bytePair i ++ [r])) ∨
  (reserved = false ∧ payload = onoff :: (bytePair v ++ bytePair i))

/-- The two readbacks of a response (44_client_frames.md R140). They have a value also where a reading was never published,
converted from its free value, where R140 and R26 refuse (the model's choice, log 7, log 22). -/
def ReadbacksAre (s : State) (rv ri : Half) : Prop :=
  raw2pctValue .vread .voltage s = .ok rv ∧ raw2pctValue .iread .current s = .ok ri

/-- A request for `v`, `i` has a meaning: it exceeds the power limit, or each changed field converts
(44_client_frames.md R138). -/
def RequestDefined (s : State) (v i : Half) : Prop :=
  s.par.maxPower < v.toNat * i.toNat / 65536 ∨
  ((v ≠ s.spV → ∃ c, percentToPwm s.par .vset v.toNat = .ok c) ∧
   (i ≠ s.spI → ∃ c, percentToPwm s.par .iset i.toNat = .ok c))

/-- The events that act on the receiver of an end: a frame that arrives there, a byte, an idle timeout. -/
def ReceivesAt (e : End) (i : Instr) : Prop :=
  (∃ bytes, wireBytes i = some (e, bytes)) ∨ (∃ b, i = .rxbyte e b) ∨ i = .rxidle e

/-- The events that may run a Setpoint request: SETPOINT itself, and a byte or a frame that arrives at the slave
(44_client_frames.md R136). -/
def MayRunSetpoint (i : Instr) : Prop :=
  (∃ p, i = .setpoint p) ∨ (∃ b, i = .rxbyte .slave b) ∨ (∃ bytes, wireBytes i = some (.slave, bytes))

/-- Between two states nothing differs but that the second has emitted more. -/
def OnlyEmits (s t : State) : Prop := t = { s with emitted := t.emitted } ∧ s.emitted <+: t.emitted

end Sys2Proof.Machine
end

