-- ==== Sys2Proof/Certificates/Slice0/Obligations.lean ====
section
/-!
DEFINITION. The statements for the provers. Each docstring names the rule of spec/ the statement formalises. A statement
about a step or an event holds in every state that meets its hypotheses, reached or not.
-/
open Sys2Proof Sys2Proof.Machine

/-! ### Encoding and stepping -/

/-- R60, R62 (the layouts of the operations are the model's, log 2; those of the frames the spec's): no bit of an encoding
is dropped. -/
def Obligations.DecodeOfEncodeIsTheInstruction : Prop :=
  ∀ (i : Instr) (rest : List Byte), i.wellFormed = true → decode (encode i ++ rest) = .ok (i, rest)

/-- R51, R52, R55, R56: the spec's own frames, byte for byte, are the rows they stand for. -/
def Obligations.SpecFramesDecodeToTheirRows : Prop :=
  decodeFrame .slave [0x17, 0x01, 0x10, 0x00, 0x08, 0x00, 0x00, 0x30]
    = .ok (.setpointReq true 0x1000 0x0800 0x30, []) ∧
  decodeFrame .slave [0x16, 0x01, 0x10, 0x00, 0x08, 0x00, 0x2F] = .ok (.setpointReqAlt true 0x1000 0x0800 0x2F, []) ∧
  decodeFrame .master [0x17, 0x05, 0x0F, 0xF4, 0x04, 0xD2, 0x00, 0xF5] = .ok (.setpointRsp 0x05 0x0FF4 0x04D2 0xF5, []) ∧
  decodeFrame .slave [0x82, 0x09, 0x8B] = .ok (.objgetReq 0x09 0x8B, []) ∧
  decodeFrame .master [0x84, 0x09, 0x10, 0x00, 0x9D] = .ok (.objgetRspData 0x09 0x1000 0x9D, []) ∧
  decodeFrame .master [0x82, 0x07, 0x89] = .ok (.objgetRspNodata 0x07 0x89, []) ∧
  decodeFrame .slave [0x27, 0x01, 0x10, 0x00, 0x08, 0x00, 0x00, 0x40]
    = .ok (.frameHdr .slave 2 7 [0x01, 0x10, 0x00, 0x08, 0x00, 0x00, 0x40], [])

/-- R38: a step delivers the next event of the script as one indivisible step, and takes exactly its bytes off. -/
def Obligations.StepRunsTheDecodedEvent : Prop :=
  ∀ (s : State) (i : Instr) (rest : List Byte), s.par.bootDone = true → decode s.script = .ok (i, rest) →
    i.wellFormed = true → step s = exec i { s with script := rest }

/-- R162, R166, R186 (log 2 and log 17, the model's choices): when a step does not run an event. The only fault is ISPFAIL,
so no event of the block traps. -/
def Obligations.StepStopsOnlyByName : Prop :=
  ∀ s : State,
    (s.par.bootDone = false → step s = .fault .ispFail) ∧
    (s.par.bootDone = true → s.script = [] → step s = .next s) ∧
    (s.par.bootDone = true → s.script ≠ [] → ∀ e, decode s.script = .error e → step s = .refused (.undecodable e)) ∧
    (∀ f, step s = .fault f → s.par.bootDone = false)

/-! ### The frame codec -/

/-- R66: CKSUM completes on every byte string, with the byte sum modulo 256. -/
def Obligations.ChecksumIsTheByteSum : Prop :=
  ∀ (bs : List Byte) (s : State),
    exec (.cksum bs) s = .next { s with emitted := s.emitted ++ [.result (.checksum (byteSum bs))] }

/-- R67: ENCODE emits and delivers header, payload and checksum, or is refused outside its operands; nothing else
changes. -/
def Obligations.EncodeBuildsTheFrameOrIsRefused : Prop :=
  ∀ (src : End) (cls : Half) (payload : List Byte) (s : State),
    (cls.toNat ≤ 15 → payload.length ≤ 14 →
      exec (.encode src cls payload) s =
        .next { s with emitted := s.emitted ++
          [.txBytes src (frameOf cls.toNat payload), .result (.frame (frameOf cls.toNat payload))] }) ∧
    ((15 < cls.toNat ∨ 14 < payload.length) → exec (.encode src cls payload) s = .refused .encodeOperands)

/-- R69: DECODE answers every byte string with the verdict of the rule, N = 0 before length, length before checksum. -/
def Obligations.DecodeGivesTheVerdict : Prop :=
  ∀ s : State,
    exec (.decode []) s = .next { s with emitted := s.emitted ++ [.result (.verdict .incomplete)] } ∧
    ∀ (h : Byte) (body : List Byte),
      exec (.decode (h :: body)) s =
        .next { s with emitted := s.emitted ++ [.result (.verdict
          (if h.toNat % 16 = 0 then .invalid
           else if body.length < h.toNat % 16 then .incomplete
           else if h.toNat % 16 < body.length then .invalid
           else if body.getLast? = some (byteSum (h :: body.dropLast)) then
             .complete (BitVec.ofNat 4 (h.toNat / 16)) body.dropLast
           else .invalid))] }

/-- R71: DECODE of what ENCODE emits is Complete with the same class and payload, and of every proper prefix Incomplete. -/
def Obligations.DecodeInvertsEncode : Prop :=
  ∀ (src : End) (cls : Half) (payload : List Byte) (s : State), cls.toNat ≤ 15 → payload.length ≤ 14 →
    ∃ f : List Byte,
      exec (.encode src cls payload) s =
        .next { s with emitted := s.emitted ++ [.txBytes src f, .result (.frame f)] } ∧
      exec (.decode f) s =
        .next { s with emitted := s.emitted ++ [.result (.verdict (.complete (BitVec.ofNat 4 cls.toNat) payload))] } ∧
      ∀ n, n < f.length →
        exec (.decode (f.take n)) s = .next { s with emitted := s.emitted ++ [.result (.verdict .incomplete)] }

/-- R75(a): one inverted bit in the class field, the payload or the checksum of an encoded frame leaves every proper prefix
Incomplete and makes the whole Invalid. -/
def Obligations.OneBitErrorsOutsideTheLengthAreInvalid : Prop :=
  ∀ (cls : Nat) (payload : List Byte) (n k : Nat) (b : Byte) (s : State), cls ≤ 15 → payload.length ≤ 14 →
    (frameOf cls payload)[n]? = some b → k < 8 → (n = 0 → 4 ≤ k) →
    let f := (frameOf cls payload).set n (b ^^^ BitVec.twoPow 8 k)
    exec (.decode f) s = .next { s with emitted := s.emitted ++ [.result (.verdict .invalid)] } ∧
    ∀ m, m < f.length →
      exec (.decode (f.take m)) s = .next { s with emitted := s.emitted ++ [.result (.verdict .incomplete)] }

/-- R72, R136: one received byte is accumulated; a verdict empties the buffer and appears on frame_out; on the slave a
Complete verdict of class 1 runs SETPOINT and of class 8 OBJGET in the same event; nothing else changes. -/
def Obligations.ReceivedByteFollowsTheVerdict : Prop :=
  ∀ (dst : End) (b : Byte) (s : State), (codecAt dst s).rxlen ≤ 15 →
    ∃ c : Codec,
      c.rxbuf.toList = (codecAt dst s).rxbuf.toList.set (codecAt dst s).rxlen b ∧
      exec (.rxbyte dst b) s =
        (match verdictOf ((codecAt dst s).rxbuf.toList.take (codecAt dst s).rxlen ++ [b]) with
         | .incomplete => .next (setCodec dst ⟨c.rxbuf, (codecAt dst s).rxlen + 1⟩ s)
         | .invalid =>
           .next { setCodec dst ⟨c.rxbuf, 0⟩ s with emitted := s.emitted ++ [.frameOut dst .invalid] }
         | .complete cls p =>
           let t := { setCodec dst ⟨c.rxbuf, 0⟩ s with emitted := s.emitted ++ [.frameOut dst (.complete cls p)] }
           if dst = .slave ∧ cls = 1 then exec (.setpoint p) t
           else if dst = .slave ∧ cls = 8 then exec (.objget p) t
           else .next t)

/-- R72(a), R72(b): with an empty buffer RXBYTE completes for every byte: the byte is a header, kept with RXLEN = 1, or
Invalid at once when its N is 0. -/
def Obligations.FirstByteIsAHeader : Prop :=
  ∀ (dst : End) (b : Byte) (s : State), (codecAt dst s).rxlen = 0 →
    ∃ t : State, exec (.rxbyte dst b) s = .next t ∧
      (codecAt dst t).rxlen = (if b.toNat % 16 = 0 then 0 else 1) ∧
      (codecAt dst t).rxbuf[0] = b ∧
      t.emitted = s.emitted ++ (if b.toNat % 16 = 0 then [.frameOut dst .invalid] else []) ∧
      setCodec dst (codecAt dst s) t = { s with emitted := t.emitted }

/-- R76: RXIDLE sets RXLEN to 0 and changes nothing else, at either end. -/
def Obligations.IdleEmptiesTheBuffer : Prop :=
  ∀ s : State,
    exec (.rxidle .slave) s = .next { s with rxS := { s.rxS with rxlen := 0 } } ∧
    exec (.rxidle .master) s = .next { s with rxM := { s.rxM with rxlen := 0 } }

/-- R73: between events RXLEN is at most 15 and within what the header announces; every step keeps it, at both ends. -/
def Obligations.ReceiverInvariantIsKept : Prop :=
  ∀ s t : State, ReceiverOk s.rxM → ReceiverOk s.rxS → step s = .next t → ReceiverOk t.rxM ∧ ReceiverOk t.rxS

/-! ### Frames on the wire -/

/-- R69, R72, R156: a frame row that arrives at an empty receiver with a wrong checksum, or with N = 0, is Invalid, empties
the buffer and changes nothing else. -/
def Obligations.BadFrameIsInvalid : Prop :=
  ∀ (i : Instr) (dst : End) (bytes : List Byte) (s : State), i.wellFormed = true → wireBytes i = some (dst, bytes) →
    (codecAt dst s).rxlen = 0 →
    (bytes.length = 1 ∨ bytes.getLast? ≠ some (byteSum bytes.dropLast)) →
    ∃ t : State, exec i s = .next t ∧ (codecAt dst t).rxlen = 0 ∧
      t.emitted = s.emitted ++ [.frameOut dst .invalid] ∧
      setCodec dst (codecAt dst s) t = { s with emitted := t.emitted }

/-- R57, R71, R72, R136, R150: a frame row with a good checksum that arrives at an empty receiver, at the master or with a
class other than 1 and 8, completes: the verdict Complete appears with its class and payload, and nothing else changes.
It says so of FRAME.HDR and of the three response rows. -/
def Obligations.GoodFrameIsComplete : Prop :=
  ∀ (i : Instr) (dst : End) (h : Byte) (body : List Byte) (s : State), i.wellFormed = true →
    wireBytes i = some (dst, h :: body) → (codecAt dst s).rxlen = 0 → body ≠ [] →
    body.getLast? = some (byteSum (h :: body.dropLast)) →
    (dst = .slave → h.toNat / 16 ≠ 1 ∧ h.toNat / 16 ≠ 8) →
    ∃ t : State, exec i s = .next t ∧ (codecAt dst t).rxlen = 0 ∧
      t.emitted = s.emitted ++ [.frameOut dst (.complete (BitVec.ofNat 4 (h.toNat / 16)) body.dropLast)] ∧
      setCodec dst (codecAt dst s) t = { s with emitted := t.emitted }

/-- R72, R136: a frame of class 1 or 8 with a good checksum, of a named shape or of none, that arrives at an empty receiver
of the slave is Complete and runs SETPOINT or OBJGET on its payload in the same event. -/
def Obligations.SlaveFrameIsDispatched : Prop :=
  ∀ (i : Instr) (h : Byte) (body : List Byte) (s : State), i.wellFormed = true →
    wireBytes i = some (.slave, h :: body) → s.rxS.rxlen = 0 → body ≠ [] →
    body.getLast? = some (byteSum (h :: body.dropLast)) →
    ∃ c : Codec, c.rxlen = 0 ∧
      (h.toNat / 16 = 1 → exec i s = exec (.setpoint body.dropLast)
        { s with rxS := c, emitted := s.emitted ++ [.frameOut .slave (.complete 1 body.dropLast)] }) ∧
      (h.toNat / 16 = 8 → exec i s = exec (.objget body.dropLast)
        { s with rxS := c, emitted := s.emitted ++ [.frameOut .slave (.complete 8 body.dropLast)] })

/-- R74, R76, R77: at both ends, whatever the receiver has accumulated, after RXIDLE the next frame sent is framed correctly:
its Complete verdict appears with the buffer empty, and the rest is the dispatch of that verdict. -/
def Obligations.IdleRestoresFraming : Prop :=
  ∀ (dst : End) (cls : BitVec 4) (payload : List Byte) (s : State), payload.length ≤ 14 →
    ∃ c : Codec, c.rxlen = 0 ∧
      let u := { setCodec dst c s with emitted := s.emitted ++ [.frameOut dst (.complete cls payload)] }
      andThen (exec (.rxidle dst) s)
          (exec (.frameHdr dst cls (BitVec.ofNat 4 (payload.length + 1)) (frameOf cls.toNat payload).tail)) =
        (if dst = .slave ∧ cls = 1 then exec (.setpoint payload) u
         else if dst = .slave ∧ cls = 8 then exec (.objget payload) u
         else .next u)

/-- R51, R58, R72, R136, R138 (D9, D38): a Setpoint request frame with its checksum, at an empty receiver, is Complete and
has the effect of SETPOINT on its payload; in the length the device does not expect it is ignored. That it completes also
where a reading of the response was never published, on the reading's free value, is the model's choice (log 7, log 22): R140
and R26 refuse there. -/
def Obligations.SetpointFramesRunSetpoint : Prop :=
  ∀ (on : Bool) (v i : Half) (s : State), s.rxS.rxlen = 0 →
    let short := boolByte on :: (bytePair v ++ bytePair i)
    let long := short ++ [0]
    (s.par.setpointReqReserved = true → RequestDefined s v i → (∃ rv ri, ReadbacksAre s rv ri) →
      ∃ t u : State, exec (.setpoint long) s = .next u ∧
        exec (.setpointReq on v i (byteSum (0x17 :: long))) s = .next t ∧ t.rxS.rxlen = 0 ∧
        t = { u with rxS := t.rxS, emitted := t.emitted } ∧
        t.emitted = s.emitted ++ [.frameOut .slave (.complete 1 long)] ++ u.emitted.drop s.emitted.length) ∧
    (s.par.setpointReqReserved = false → RequestDefined s v i → (∃ rv ri, ReadbacksAre s rv ri) →
      ∃ t u : State, exec (.setpoint short) s = .next u ∧
        exec (.setpointReqAlt on v i (byteSum (0x16 :: short))) s = .next t ∧ t.rxS.rxlen = 0 ∧
        t = { u with rxS := t.rxS, emitted := t.emitted } ∧
        t.emitted = s.emitted ++ [.frameOut .slave (.complete 1 short)] ++ u.emitted.drop s.emitted.length) ∧
    (s.par.setpointReqReserved = true →
      ∃ t : State, exec (.setpointReqAlt on v i (byteSum (0x16 :: short))) s = .next t ∧ t.rxS.rxlen = 0 ∧
        { t with rxS := s.rxS } = { s with emitted := s.emitted ++ [.frameOut .slave (.complete 1 short)] }) ∧
    (s.par.setpointReqReserved = false →
      ∃ t : State, exec (.setpointReq on v i (byteSum (0x17 :: long))) s = .next t ∧ t.rxS.rxlen = 0 ∧
        { t with rxS := s.rxS } = { s with emitted := s.emitted ++ [.frameOut .slave (.complete 1 long)] })

/-- R55, R56, R145: an Object request frame with its checksum, at an empty receiver, is Complete and answered in the same
event; the answer to an id the source does not recognize is the request itself. -/
def Obligations.ObjectRequestFrameIsAnswered : Prop :=
  ∀ (id : Byte) (s : State), s.rxS.rxlen = 0 →
    ∃ t : State, exec (.objgetReq id (byteSum [0x82, id])) s = .next t ∧ t.rxS.rxlen = 0 ∧
      { t with rxS := s.rxS } = { s with emitted := s.emitted ++
        [.frameOut .slave (.complete 8 [id]),
         .txBytes .slave
          (if id = 3 then frameOf 8 (id :: bytePair s.spOvp)
           else if id = 4 then frameOf 8 (id :: bytePair s.spOcp)
           else if id = 9 then frameOf 8 (id :: bytePair s.spV)
           else if id = 10 then frameOf 8 (id :: bytePair s.spI)
           else [0x82, id, byteSum [0x82, id]])] }

/-! ### The unit converter -/

/-- R86: MKPROFILE writes the profile of a rating whose display full scale NS is an integer 1 to 9999 at the largest fitting
number of decimal places, with multipliers rounded half up on the exact quotient, and DP[P] once both kinds are written;
nothing else changes. -/
def Obligations.ProfileIsDerivedFromTheRating : Prop :=
  ∀ (k : Quantity) (num den : Word) (d ns : Nat) (s : State), den ≠ 0 → 0 < num.toInt → d ≤ 3 →
    num.toNat * 10 ^ d = ns * den.toNat → ns ≤ 9999 → (d = 3 ∨ 9999 * den.toNat < num.toNat * 10 ^ (d + 1)) →
    ∃ t, exec (.mkprofile k num den) s = .next t ∧ (profileAt k t).written = true ∧
      (profileAt k t).dp.toNat = d ∧ (profileAt k t).maxdisp.toNat = ns ∧
      (profileAt k t).rbmul.toNat = ⌊(65536 * ns : ℚ) / 25600 + 1 / 2⌋₊ ∧
      (profileAt k t).spmul.toNat = ⌊(65536 * 25600 : ℚ) / ns + 1 / 2⌋₊ ∧
      (∀ q, q ≠ k → profileAt q t = profileAt q s) ∧
      (t.profV.written = true → t.profI.written = true → t.dpP.toNat = t.profV.dp.toNat + t.profI.dp.toNat) ∧
      (t.profV.written = false ∨ t.profI.written = false → t.dpP = s.dpP) ∧
      t = { s with profV := t.profV, profI := t.profI, dpP := t.dpP }

/-- R86, D14: MKPROFILE is refused for a rating of 0 or less, above 9999, or with no integer NS. -/
def Obligations.ProfileOfAnUnfitRatingIsRefused : Prop :=
  ∀ (k : Quantity) (num den : Word) (s : State), den ≠ 0 →
    (num.toInt ≤ 0 ∨ (9999 * den.toNat : Int) < num.toInt ∨
      (∃ d, d ≤ 3 ∧ num.toNat * 10 ^ d ≤ 9999 * den.toNat ∧
        (d = 3 ∨ 9999 * den.toNat < num.toNat * 10 ^ (d + 1)) ∧ ¬ den.toNat ∣ num.toNat * 10 ^ d)) →
    exec (.mkprofile k num den) s = .refused .nominalRange

/-- R14, R87(b), R87(e), R88(b): the multipliers of a legal profile are in the register ranges, full scale maps to 25600 and
back, and no product inside the bounds reaches 2^32. -/
def Obligations.LegalProfilesNeverOverflow : Prop :=
  ∀ p : Profile, ProfileOk p →
    3 ≤ p.rbmul.toNat ∧ p.rbmul.toNat ≤ 25597 ∧ 167789 ≤ p.spmul.toNat ∧ p.spmul.toNat ≤ 1677721600 ∧
    (p.maxdisp.toNat * p.spmul.toNat + 32768) / 65536 = 25600 ∧
    (25600 * p.rbmul.toNat + 32768) / 65536 = p.maxdisp.toNat ∧
    (∀ d, d ≤ p.maxdisp.toNat → d * p.spmul.toNat + 32768 < 2 ^ 32 ∧ (d * p.spmul.toNat + 32768) / 65536 ≤ 25600) ∧
    (∀ c, c ≤ 25600 → c * p.rbmul.toNat + 32768 < 2 ^ 32)

/-- R87, D15: D2P on the profile registers of its kind, whatever they hold (free values before MKPROFILE, log 7): inside its
operand range, and above it under the alternative `wrap32`, the product "all in unsigned 32 bits"; above it under `refuse`
refused. With a legal profile no product inside the range wraps. -/
def Obligations.DisplayIsScaledToPercent : Prop :=
  ∀ (q : Quantity) (display : Word) (s : State),
    let p := profileAt q s
    (display.toNat ≤ p.maxdisp.toNat ∨ s.par.ovfPolicy = .wrap32 →
      exec (.d2p (.of q) display) s = .next { s with emitted := s.emitted ++
        [.result (.percent (BitVec.ofNat 16 ((display.toNat * p.spmul.toNat + 32768) % 2 ^ 32 / 65536)))] }) ∧
    (ProfileOk p → display.toNat ≤ p.maxdisp.toNat →
      exec (.d2p (.of q) display) s = .next { s with emitted := s.emitted ++
        [.result (.percent (BitVec.ofNat 16 ((display.toNat * p.spmul.toNat + 32768) / 65536)))] }) ∧
    (p.maxdisp.toNat < display.toNat → s.par.ovfPolicy = .refuse →
      exec (.d2p (.of q) display) s = .refused .displayRange)

/-- R88, D15: P2D on the profile registers of its kind, whatever they hold (free values before MKPROFILE, log 7): inside its
operand range, and above it under the alternative `wrap32`, the product in unsigned 32 bits; above it under `refuse` refused.
With a legal profile no product inside the range wraps. -/
def Obligations.PercentIsScaledToDisplay : Prop :=
  ∀ (q : Quantity) (percent : Word) (s : State),
    let p := profileAt q s
    (percent.toNat ≤ 25600 ∨ s.par.ovfPolicy = .wrap32 →
      exec (.p2d (.of q) percent) s = .next { s with emitted := s.emitted ++
        [.result (.display (BitVec.ofNat 16 ((percent.toNat * p.rbmul.toNat + 32768) % 2 ^ 32 / 65536)))] }) ∧
    (ProfileOk p → percent.toNat ≤ 25600 →
      exec (.p2d (.of q) percent) s = .next { s with emitted := s.emitted ++
        [.result (.display (BitVec.ofNat 16 ((percent.toNat * p.rbmul.toNat + 32768) / 65536)))] }) ∧
    (25600 < percent.toNat → s.par.ovfPolicy = .refuse →
      exec (.p2d (.of q) percent) s = .refused .percentRange)

/-- R91: a display conversion for P is refused, in every state and for every operand. -/
def Obligations.PowerConversionIsRefused : Prop :=
  ∀ (x : Word) (s : State),
    exec (.d2p .power x) s = .refused .powerKind ∧ exec (.p2d .power x) s = .refused .powerKind

/-- R90: under every legal profile a display value converted to percent and back is exactly itself. -/
def Obligations.DisplayRoundTripIsExact : Prop :=
  ∀ (q : Quantity) (display : Word) (s : State), ProfileOk (profileAt q s) →
    display.toNat ≤ (profileAt q s).maxdisp.toNat →
    ∃ c : Half,
      exec (.d2p (.of q) display) s = .next { s with emitted := s.emitted ++ [.result (.percent c)] } ∧
      c.toNat ≤ 25600 ∧
      exec (.p2d (.of q) (c.setWidth 32)) s =
        .next { s with emitted := s.emitted ++ [.result (.display (BitVec.ofNat 16 display.toNat))] }

/-- R92, D15: RAW2PCT of a reading, published or not (a free value before the first publication, log 7): gain, half, shift,
then the signed offset, clamped at 0; a product of 2^32 or more is reduced under `wrap32` and refused under `refuse`; a
result above 65535 is refused. -/
def Obligations.ReadingIsConvertedToPercent : Prop :=
  ∀ (i : ReadCal) (j : Channel) (s : State), 1 ≤ s.par.adcShift →
    let t : Nat := (readCal i s.par.cal).gain * (readingAt j s.raw).value + 2 ^ (s.par.adcShift - 1)
    let u : Int := ((t % 2 ^ 32 / 2 ^ s.par.adcShift : Nat) : Int) + (readCal i s.par.cal).offset
    (t < 2 ^ 32 ∨ s.par.ovfPolicy = .wrap32 → u ≤ 65535 →
      exec (.raw2pct i j) s =
        .next { s with emitted := s.emitted ++ [.result (.percent (BitVec.ofNat 16 (max 0 u).toNat))] }) ∧
    (t < 2 ^ 32 ∨ s.par.ovfPolicy = .wrap32 → 65535 < u → exec (.raw2pct i j) s = .refused .percentOverflow) ∧
    (2 ^ 32 ≤ t → s.par.ovfPolicy = .refuse → exec (.raw2pct i j) s = .refused .productOverflow)

/-- R25, R26 (log 5, log 7, the model's choices): right after reset, with every reading a free value, RAW2PCT completes on
every reading with every read entry, so a Setpoint request can be answered before the first scan. -/
def Obligations.ReadingsConvertBeforeTheFirstScan : Prop :=
  (∀ (i : ReadCal) (j : Channel), ∃ v : Half,
    exec (.raw2pct i j) State.reset = .next { State.reset with emitted := [.result (.percent v)] }) ∧
  ∃ rv ri, ReadbacksAre State.reset rv ri

/-- R93, R127, D15: PCT2PWM: gain, half, shift, then the signed offset, complemented within the period; a product of 2^32 or
more is reduced under `wrap32` and refused under `refuse`; a code outside 0 to PWM_PERIOD is refused. -/
def Obligations.PercentIsConvertedToCompare : Prop :=
  ∀ (i : SetCal) (percent : Word) (s : State), 1 ≤ s.par.pwmShift →
    let t : Nat := (setCal i s.par.cal).gain * percent.toNat + 2 ^ (s.par.pwmShift - 1)
    let code : Int := ((t % 2 ^ 32 / 2 ^ s.par.pwmShift : Nat) : Int) + (setCal i s.par.cal).offset
    (t < 2 ^ 32 ∨ s.par.ovfPolicy = .wrap32 → 0 ≤ code → code ≤ s.par.pwmPeriod →
      exec (.pct2pwm i percent) s =
        .next { s with emitted := s.emitted ++ [.result (.compare ((s.par.pwmPeriod : Int) - code).toNat)] }) ∧
    (t < 2 ^ 32 ∨ s.par.ovfPolicy = .wrap32 → (code < 0 ∨ (s.par.pwmPeriod : Int) < code) →
      exec (.pct2pwm i percent) s = .refused .pwmCodeRange) ∧
    (2 ^ 32 ≤ t → s.par.ovfPolicy = .refuse → exec (.pct2pwm i percent) s = .refused .productOverflow)

/-! ### The ADC scheduler and the interlock -/

/-- R108: a not-done event changes no register and emits nothing. -/
def Obligations.NotDoneConversionIsIgnored : Prop :=
  ∀ (code : BitVec 19) (s : State), exec (.adcevt false code) s = .next s

/-- R107: a completed conversion inside a burst adds its code and counts, without overflow, and nothing else changes. -/
def Obligations.ConversionIsAccumulated : Prop :=
  ∀ (code : BitVec 19) (s : State), s.par.adcBits ≤ 19 → AccumulatorOk s → code.toNat < 2 ^ s.par.adcBits →
    s.accCnt.toNat < 8191 →
    ∃ t, exec (.adcevt true code) s = .next t ∧ t.accSum.toNat = s.accSum.toNat + code.toNat ∧
      t.accCnt.toNat = s.accCnt.toNat + 1 ∧ t = { s with accSum := t.accSum, accCnt := t.accCnt }

/-- R107, R109, R110, R112: the conversion that completes a burst publishes the rounded sum for the current channel, clears
the accumulator, advances the scan, drives adc_sel, and for the temperature channel evaluates the interlock. -/
def Obligations.LastConversionCompletesTheBurst : Prop :=
  ∀ (code : BitVec 19) (s : State), s.par.adcBits ≤ 19 → AccumulatorOk s → code.toNat < 2 ^ s.par.adcBits →
    s.accCnt.toNat = 8191 →
    let r := (s.accSum.toNat + code.toNat + 256) / 512
    let trips := s.scanIdx = .temperature ∧ r < s.par.otThresh
    ∃ t, exec (.adcevt true code) s = .next t ∧
      readingAt s.scanIdx t.raw = ⟨r, true⟩ ∧ (∀ j, j ≠ s.scanIdx → readingAt j t.raw = readingAt j s.raw) ∧
      t.accSum = 0 ∧ t.accCnt = 0 ∧
      (channelByte t.scanIdx).toNat = ((channelByte s.scanIdx).toNat + 1) % 5 ∧
      (trips → t.otLatch = true ∧ t.outEn = false ∧
        t.emitted = s.emitted ++ [.adcSel t.scanIdx, .outEn false]) ∧
      (¬ trips → t.outEn = s.outEn ∧ t.emitted = s.emitted ++ [.adcSel t.scanIdx] ∧
        t.otLatch = (if s.scanIdx = .temperature then false else s.otLatch)) ∧
      t = { s with raw := t.raw, accSum := 0, accCnt := 0, scanIdx := t.scanIdx, otLatch := t.otLatch,
                   outEn := t.outEn, emitted := t.emitted }

/-- D21, V10: a done event whose code is wider than ADC_BITS bits is no event of the block. -/
def Obligations.WideCodeIsNoOperand : Prop :=
  ∀ (code : BitVec 19) (s : State), 2 ^ s.par.adcBits ≤ code.toNat →
    exec (.adcevt true code) s = .refused .codeTooWide

/-- R107, R108, R109, R110: from an empty accumulator, any run of conversion events with exactly 8192 completed ones, not-done
events wherever they fall, publishes `(sum + 256) >> 9` for the current channel and for no other. -/
def Obligations.BurstPublishesTheRoundedSum : Prop :=
  ∀ (es : List (Bool × BitVec 19)) (s : State), s.par.adcBits ≤ 19 → s.accSum = 0 → s.accCnt = 0 →
    (∀ e ∈ es, e.1 = true → e.2.toNat < 2 ^ s.par.adcBits) → (es.filter (·.1)).length = 8192 →
    ∃ t, runAll (es.map fun e => .adcevt e.1 e.2) s = .next t ∧
      readingAt s.scanIdx t.raw = ⟨(((es.filter (·.1)).map fun e => e.2.toNat).sum + 256) / 512, true⟩ ∧
      (∀ j, j ≠ s.scanIdx → readingAt j t.raw = readingAt j s.raw) ∧
      t.accSum = 0 ∧ t.accCnt = 0 ∧ t.scanIdx = nextChannel s.scanIdx

/-- R107(a): fewer than 8192 completed conversions publish nothing, whatever else happens in the burst. -/
def Obligations.ShortBurstPublishesNothing : Prop :=
  ∀ (es : List (Bool × BitVec 19)) (s : State), s.par.adcBits ≤ 19 → s.accSum = 0 → s.accCnt = 0 →
    (∀ e ∈ es, e.1 = true → e.2.toNat < 2 ^ s.par.adcBits) → (es.filter (·.1)).length < 8192 →
    ∃ t, runAll (es.map fun e => .adcevt e.1 e.2) s = .next t ∧
      t.accCnt.toNat = (es.filter (·.1)).length ∧
      t.accSum.toNat = ((es.filter (·.1)).map fun e => e.2.toNat).sum ∧
      t = { s with accSum := t.accSum, accCnt := t.accCnt }

/-- R112 (that OTEVAL may be called on its own is the model's choice, log 11): on the reading published in RAW[4] OTEVAL
latches and forces the output off below the threshold, and at or above it clears the latch without turning the output on;
another operand is no publication and changes nothing. -/
def Obligations.InterlockComparesWithTheThreshold : Prop :=
  ∀ (r : Word) (s : State),
    (s.raw.temperature = ⟨r.toNat, true⟩ → r.toNat < s.par.otThresh →
      exec (.oteval r) s =
        .next { s with otLatch := true, outEn := false, emitted := s.emitted ++ [.outEn false] }) ∧
    (s.raw.temperature = ⟨r.toNat, true⟩ → s.par.otThresh ≤ r.toNat →
      exec (.oteval r) s = .next { s with otLatch := false }) ∧
    (s.raw.temperature ≠ ⟨r.toNat, true⟩ → exec (.oteval r) s = .next s)

/-- R112(c): the latch is re-evaluated at a temperature publication "and at no other time": where it stands as the last
publication left it, OTEVAL called on its own moves neither flag nor anything else but, at most, port out_en to 0 again. -/
def Obligations.DirectEvaluationMovesNoFlag : Prop :=
  ∀ (r : Word) (s : State), LatchFollows s → Interlocked s →
    exec (.oteval r) s = .next s ∨ exec (.oteval r) s = .next { s with emitted := s.emitted ++ [.outEn false] }

/-- R112(c): the latch is set exactly when a temperature reading has been published and the last one is below OT_THRESH;
every step keeps it so. -/
def Obligations.LatchFollowsTheTemperature : Prop := ∀ s t : State, LatchFollows s → step s = .next t → LatchFollows t

/-- R113(b), R113(c), R161: while the latch is set as the last temperature publication left it, no event turns the output
on, and only the event that publishes a temperature reading at or above the threshold clears the latch, the output off with
it. -/
def Obligations.LatchHoldsTheOutputOff : Prop :=
  ∀ (i : Instr) (s t : State), LatchFollows s → s.otLatch = true → s.outEn = false → exec i s = .next t →
    t.outEn = false ∧
    (t.otLatch = true ∨
      ∃ code r, i = .adcevt true code ∧ s.scanIdx = .temperature ∧ s.accCnt.toNat = 8191 ∧
        t.raw.temperature = ⟨r, true⟩ ∧ s.par.otThresh ≤ r)

/-- R113(b), R113(c): a run that starts over temperature with the output off and ends with the output on contains an event
that publishes a temperature reading at or above the threshold. -/
def Obligations.OutputReturnsOnlyAfterARecoveredReading : Prop :=
  ∀ (is : List Instr) (s t : State), LatchFollows s → s.otLatch = true → s.outEn = false →
    runAll is s = .next t → t.outEn = true →
    ∃ pre code post u w r, is = pre ++ .adcevt true code :: post ∧ runAll pre s = .next u ∧
      exec (.adcevt true code) u = .next w ∧ u.scanIdx = .temperature ∧ u.accCnt.toNat = 8191 ∧
      w.raw.temperature = ⟨r, true⟩ ∧ s.par.otThresh ≤ r

/-- R163: every step keeps OUT_EN = 1 implying OT_LATCH = 0, from every state in which it holds. -/
def Obligations.InterlockIsKept : Prop := ∀ s t : State, Interlocked s → step s = .next t → Interlocked t

/-- R163: from every state with both flags 0, as reset leaves them, every run of events ends in a state where OUT_EN = 1
implies OT_LATCH = 0. -/
def Obligations.OutputIsNeverOnUnderTheLatch : Prop :=
  ∀ (is : List Instr) (s t : State), s.otLatch = false → s.outEn = false → runAll is s = .next t →
    t.outEn = true → t.otLatch = false

/-! ### The PWM setpoint driver -/

/-- R126, D15: PWMSET loads the compare register of its channel and drives its port, or is refused with the conversion; a
product of 2^32 or more is reduced under `wrap32` and refused under `refuse`. -/
def Obligations.CompareRegisterIsLoaded : Prop :=
  ∀ (k : Quantity) (percent : Word) (s : State), 1 ≤ s.par.pwmShift →
    let c := match k with | .voltage => s.par.cal.vset | .current => s.par.cal.iset
    let t : Nat := c.gain * percent.toNat + 2 ^ (s.par.pwmShift - 1)
    let code : Int := ((t % 2 ^ 32 / 2 ^ s.par.pwmShift : Nat) : Int) + c.offset
    let cmp : Nat := ((s.par.pwmPeriod : Int) - code).toNat
    (t < 2 ^ 32 ∨ s.par.ovfPolicy = .wrap32 → 0 ≤ code → code ≤ s.par.pwmPeriod →
      exec (.pwmset k percent) s =
        .next (match k with
          | .voltage => { s with pwmCmpV := cmp, emitted := s.emitted ++ [.pwmCmpV cmp] }
          | .current => { s with pwmCmpI := cmp, emitted := s.emitted ++ [.pwmCmpI cmp] })) ∧
    (t < 2 ^ 32 ∨ s.par.ovfPolicy = .wrap32 → (code < 0 ∨ (s.par.pwmPeriod : Int) < code) →
      exec (.pwmset k percent) s = .refused .pwmCodeRange) ∧
    (2 ^ 32 ≤ t → s.par.ovfPolicy = .refuse → exec (.pwmset k percent) s = .refused .productOverflow)

/-- R128, D24: OUTEN writes the stored flag OUT_EN, 0 under the latch whatever is asked, drives the port, and changes nothing
else: the request is not remembered. -/
def Obligations.EnableIsGatedByTheLatch : Prop :=
  ∀ (req : Bool) (s : State),
    exec (.outen req) s =
      .next { s with outEn := req && !s.otLatch, emitted := s.emitted ++ [.outEn (req && !s.otLatch)] }

/-! ### The client frames -/

/-- R138, R140, R141 (D31, D36): a Setpoint request within the power limit is applied field by field, drives the enable, and
is answered with the status and the readbacks. That it is applied and answered also where a reading of the response was never
published, on the reading's free value, is the model's choice (log 7, log 22): R140 and R26 refuse there. -/
def Obligations.AcceptedSetpointIsAppliedAndAnswered : Prop :=
  ∀ (on : Bool) (v i rv ri : Half) (cv ci : Nat) (payload : List Byte) (s : State),
    IsRequestPayload s.par.setpointReqReserved (boolByte on) v i payload →
    v.toNat * i.toNat / 65536 ≤ s.par.maxPower →
    (v ≠ s.spV → percentToPwm s.par .vset v.toNat = .ok cv) → (i ≠ s.spI → percentToPwm s.par .iset i.toNat = .ok ci) →
    ReadbacksAre s rv ri →
    let en := on && !s.otLatch
    exec (.setpoint payload) s =
      .next { s with
        spV := v, spI := i, outEn := en,
        pwmCmpV := if v = s.spV then s.pwmCmpV else cv,
        pwmCmpI := if i = s.spI then s.pwmCmpI else ci,
        emitted := s.emitted ++ (if v = s.spV then [] else [.pwmCmpV cv]) ++ (if i = s.spI then [] else [.pwmCmpI ci]) ++
          [.outEn en, .txBytes .slave (frameOf 1
            (statusOf en s.otLatch (infersCc en s.otLatch v rv) :: (bytePair rv ++ bytePair ri ++ [0])))] }

/-- R139, R160 (D31): a request whose power term exceeds MAX_POWER is rejected wholesale, its on/off bit included, with a
diagnostic of free content (log 10), and answered with the unchanged state. That it is answered also where a reading of the
response was never published, on the reading's free value, is the model's choice (log 7, log 22): R140 and R26 refuse there. -/
def Obligations.ExcessPowerIsRejectedWholesale : Prop :=
  ∀ (on : Bool) (v i rv ri : Half) (payload : List Byte) (s : State),
    IsRequestPayload s.par.setpointReqReserved (boolByte on) v i payload →
    s.par.maxPower < v.toNat * i.toNat / 65536 → ReadbacksAre s rv ri →
    exec (.setpoint payload) s =
      .next { s with
        diagCount := s.diagCount + 1,
        emitted := s.emitted ++
          [.diag (Config.diagText s.diagCount), .txBytes .slave (frameOf 1
            (statusOf s.outEn s.otLatch (infersCc s.outEn s.otLatch s.spV rv) :: (bytePair rv ++ bytePair ri ++ [0])))] }

/-- R138, R140, D38: a SETPOINT payload of another length is ignored; an on/off byte above 1 is refused; and a request one of
whose conversions is refused, of a changed field in the order voltage, current, or of a readback in that order, is refused
with it. A readback of a reading never published is refused as its free value converts, and not for being unpublished, which
is the model's choice (log 7, log 22). -/
def Obligations.SetpointWithoutAMeaning : Prop :=
  ∀ (o : Byte) (v i : Half) (payload : List Byte) (s : State),
    (payload.length ≠ (if s.par.setpointReqReserved then 6 else 5) → exec (.setpoint payload) s = .next s) ∧
    (IsRequestPayload s.par.setpointReqReserved o v i payload → 1 < o.toNat →
      exec (.setpoint payload) s = .refused .onoffUndefined) ∧
    (IsRequestPayload s.par.setpointReqReserved o v i payload → o.toNat ≤ 1 → ∀ r : Refusal,
      (v.toNat * i.toNat / 65536 ≤ s.par.maxPower → v ≠ s.spV → percentToPwm s.par .vset v.toNat = .error r →
        exec (.setpoint payload) s = .refused r) ∧
      (v.toNat * i.toNat / 65536 ≤ s.par.maxPower → (v ≠ s.spV → ∃ c, percentToPwm s.par .vset v.toNat = .ok c) →
        i ≠ s.spI → percentToPwm s.par .iset i.toNat = .error r → exec (.setpoint payload) s = .refused r) ∧
      (RequestDefined s v i → raw2pctValue .vread .voltage s = .error r → exec (.setpoint payload) s = .refused r) ∧
      (RequestDefined s v i → (∃ rv, raw2pctValue .vread .voltage s = .ok rv) →
        raw2pctValue .iread .current s = .error r → exec (.setpoint payload) s = .refused r))

/-- R145: OBJGET answers every id, a recognized one with its value and any other with the id alone, and ignores a payload of
another length; no register changes. -/
def Obligations.ObjectGetAnswersEveryId : Prop :=
  ∀ (payload : List Byte) (s : State),
    (payload.length ≠ 1 → exec (.objget payload) s = .next s) ∧
    (∀ id : Byte, payload = [id] →
      exec (.objget payload) s = .next { s with emitted := s.emitted ++ [.txBytes .slave (frameOf 8
        (if id = 3 then id :: bytePair s.spOvp
         else if id = 4 then id :: bytePair s.spOcp
         else if id = 9 then id :: bytePair s.spV
         else if id = 10 then id :: bytePair s.spI
         else [id]))] })

/-- R148, D15: SETREQ converts both display values as D2P does, whatever the profile registers hold (log 7), and sends the
request, with the reserved byte or without it. -/
def Obligations.SetpointRequestIsBuilt : Prop :=
  ∀ (on : Bool) (dv di : Word) (s : State),
    (s.par.ovfPolicy = .wrap32 ∨ (dv.toNat ≤ s.profV.maxdisp.toNat ∧ di.toNat ≤ s.profI.maxdisp.toNat)) →
    let v : Half := BitVec.ofNat 16 ((dv.toNat * s.profV.spmul.toNat + 32768) % 2 ^ 32 / 65536)
    let i : Half := BitVec.ofNat 16 ((di.toNat * s.profI.spmul.toNat + 32768) % 2 ^ 32 / 65536)
    exec (.setreq on dv di) s = .next { s with emitted := s.emitted ++ [.txBytes .master (frameOf 1
      (boolByte on :: (bytePair v ++ bytePair i ++ (if s.par.setpointReqReserved then [0] else []))))] }

/-- R148, R87: SETREQ with a display value above MAXDISP of its kind is refused under `refuse`. -/
def Obligations.SetpointRequestOutOfRangeIsRefused : Prop :=
  ∀ (on : Bool) (dv di : Word) (s : State), s.par.ovfPolicy = .refuse →
    (s.profV.maxdisp.toNat < dv.toNat ∨ s.profI.maxdisp.toNat < di.toNat) →
    exec (.setreq on dv di) s = .refused .displayRange

/-- R149: OBJREQ sends the three-byte Object request. -/
def Obligations.ObjectRequestIsBuilt : Prop :=
  ∀ (id : Byte) (s : State),
    exec (.objreq id) s = .next { s with emitted := s.emitted ++ [.txBytes .master [0x82, id, byteSum [0x82, id]]] }

/-! ### Frames: what each event leaves unchanged -/

/-- R35, R65, R85, R145: the operations that compute a value or send a frame change no register. -/
def Obligations.ValueEventsChangeNoRegister : Prop :=
  ∀ s t : State,
    ((∃ bs, exec (.cksum bs) s = .next t) ∨ (∃ e c p, exec (.encode e c p) s = .next t) ∨
     (∃ buf, exec (.decode buf) s = .next t) ∨ (∃ k x, exec (.d2p k x) s = .next t) ∨
     (∃ k x, exec (.p2d k x) s = .next t) ∨ (∃ i j, exec (.raw2pct i j) s = .next t) ∨
     (∃ i x, exec (.pct2pwm i x) s = .next t) ∨ (∃ p, exec (.objget p) s = .next t) ∨
     (∃ o x y, exec (.setreq o x y) s = .next t) ∨ (∃ id, exec (.objreq id) s = .next t)) →
    OnlyEmits s t

/-- R13, R24, R105, R125: what ADCEVT, OTEVAL, PWMSET, OUTEN and MKPROFILE may change. -/
def Obligations.SlaveAndProfileEventFrames : Prop :=
  ∀ s t : State,
    (∀ d c, exec (.adcevt d c) s = .next t →
      t = { s with scanIdx := t.scanIdx, accSum := t.accSum, accCnt := t.accCnt, raw := t.raw, otLatch := t.otLatch,
                   outEn := t.outEn, emitted := t.emitted } ∧
      (∀ j, j ≠ s.scanIdx → readingAt j t.raw = readingAt j s.raw)) ∧
    (∀ r, exec (.oteval r) s = .next t → t = { s with otLatch := t.otLatch, outEn := t.outEn, emitted := t.emitted }) ∧
    (∀ x, exec (.pwmset .voltage x) s = .next t → t = { s with pwmCmpV := t.pwmCmpV, emitted := t.emitted }) ∧
    (∀ x, exec (.pwmset .current x) s = .next t → t = { s with pwmCmpI := t.pwmCmpI, emitted := t.emitted }) ∧
    (∀ q, exec (.outen q) s = .next t → t = { s with outEn := t.outEn, emitted := t.emitted }) ∧
    (∀ n d, exec (.mkprofile .voltage n d) s = .next t → t = { s with profV := t.profV, dpP := t.dpP }) ∧
    (∀ n d, exec (.mkprofile .current n d) s = .next t → t = { s with profI := t.profI, dpP := t.dpP })

/-- R24, R136, R138, R150: what SETPOINT may change, and what a byte or a frame that arrives may change: at the master its
receiver alone, at the slave its receiver and what SETPOINT may change; never the latch, the readings or the profiles. -/
def Obligations.ReceiveAndSetpointFrames : Prop :=
  ∀ s t : State,
    (∀ p, exec (.setpoint p) s = .next t →
      t = { s with spV := t.spV, spI := t.spI, pwmCmpV := t.pwmCmpV, pwmCmpI := t.pwmCmpI, outEn := t.outEn,
                   diagCount := t.diagCount, emitted := t.emitted }) ∧
    (∀ i dst bytes, (wireBytes i = some (dst, bytes) ∨ (∃ b, i = .rxbyte dst b) ∨ i = .rxidle dst) →
      exec i s = .next t →
      (dst = .master → t = { s with rxM := t.rxM, emitted := t.emitted }) ∧
      (dst = .slave → t = { s with rxS := t.rxS, spV := t.spV, spI := t.spI, pwmCmpV := t.pwmCmpV,
                                   pwmCmpI := t.pwmCmpI, outEn := t.outEn, diagCount := t.diagCount,
                                   emitted := t.emitted }))

/-- R15, R20, R24, R42: each register has its writers. No event writes the parameters, the calibration, SP_OVP, SP_OCP or
the script. RXBUF and RXLEN of an end are written by what arrives at that end alone; the accumulator, the scan index and the
readings by ADCEVT; the latch by ADCEVT and OTEVAL; OUT_EN by OUTEN, ADCEVT, OTEVAL and what may run a Setpoint request; a
compare register by PWMSET of its kind and what may run a Setpoint request; SP_V and SP_I by the latter; the profiles by
MKPROFILE. What was emitted stays emitted. -/
def Obligations.EachRegisterHasItsWriter : Prop :=
  ∀ (i : Instr) (s t : State), exec i s = .next t →
    t.par = s.par ∧ t.spOvp = s.spOvp ∧ t.spOcp = s.spOcp ∧ t.script = s.script ∧ s.emitted <+: t.emitted ∧
    (∀ e, ¬ ReceivesAt e i → codecAt e t = codecAt e s) ∧
    ((∀ d c, i ≠ .adcevt d c) →
      t.scanIdx = s.scanIdx ∧ t.accSum = s.accSum ∧ t.accCnt = s.accCnt ∧ t.raw = s.raw) ∧
    ((∀ d c, i ≠ .adcevt d c) → (∀ r, i ≠ .oteval r) → t.otLatch = s.otLatch) ∧
    ((∀ d c, i ≠ .adcevt d c) → (∀ r, i ≠ .oteval r) → (∀ q, i ≠ .outen q) → ¬ MayRunSetpoint i → t.outEn = s.outEn) ∧
    ((∀ x, i ≠ .pwmset .voltage x) → ¬ MayRunSetpoint i → t.pwmCmpV = s.pwmCmpV) ∧
    ((∀ x, i ≠ .pwmset .current x) → ¬ MayRunSetpoint i → t.pwmCmpI = s.pwmCmpI) ∧
    (¬ MayRunSetpoint i → t.spV = s.spV ∧ t.spI = s.spI ∧ t.diagCount = s.diagCount) ∧
    ((∀ n d, i ≠ .mkprofile .voltage n d) → t.profV = s.profV) ∧
    ((∀ n d, i ≠ .mkprofile .current n d) → t.profI = s.profI) ∧
    ((∀ k n d, i ≠ .mkprofile k n d) → t.dpP = s.dpP)

/-- R38, and the remark under program P1: a conversion inside a burst commutes with a received byte, so an interleaved ADC
event changes no response. -/
def Obligations.ConversionCommutesWithReceivedByte : Prop :=
  ∀ (dst : End) (b : Byte) (code : BitVec 19) (s : State), code.toNat < 2 ^ s.par.adcBits → s.accCnt.toNat ≠ 8191 →
    andThen (exec (.rxbyte dst b) s) (exec (.adcevt true code)) =
      andThen (exec (.adcevt true code) s) (exec (.rxbyte dst b))

/-! ### Reset and the whole state -/

/-- R25, R26: the registers the spec gives a reset value, and of those it leaves without one, that nothing has written them
yet (what they hold is a free value, log 7). -/
def Obligations.ResetState : Prop :=
  State.reset.rxM.rxlen = 0 ∧ State.reset.rxS.rxlen = 0 ∧ (channelByte State.reset.scanIdx).toNat = 0 ∧
  State.reset.accSum.toNat = 0 ∧ State.reset.accCnt.toNat = 0 ∧ State.reset.otLatch = false ∧
  State.reset.outEn = false ∧ (∀ j, (readingAt j State.reset.raw).published = false) ∧
  (∀ k, (profileAt k State.reset).written = false)

/-- R25: the invariants of `GoodStatesStayGood`, `InterlockIsKept`, `LatchFollowsTheTemperature` and
`ReceiverInvariantIsKept` hold at reset (with the parameters the model names there, log 5, log 6). -/
def Obligations.ResetIsGood : Prop := Good State.reset

/-- R14, R17, R19, R73, R109, R163: every step keeps a good state good: receivers within their headers, output off under the
latch, the latch as the last temperature reading left it, accumulator and readings within the code width, compare registers
within the period, profiles legal, parameters legal. -/
def Obligations.GoodStatesStayGood : Prop := ∀ s t : State, Good s → step s = .next t → Good t
end

