-- ==== Sys2Proof/Laws/State.lean ====
section
/-!
SUPPORT. What each named update of the state leaves in each field: one lemma a field and update, so that no proof unfolds
an update.
-/
namespace Sys2Proof.Machine

variable (s : State)

@[simp] theorem emit_par (e : Emission) : (emit e s).par = s.par := rfl
@[simp] theorem emit_rxM (e : Emission) : (emit e s).rxM = s.rxM := rfl
@[simp] theorem emit_rxS (e : Emission) : (emit e s).rxS = s.rxS := rfl
@[simp] theorem emit_profV (e : Emission) : (emit e s).profV = s.profV := rfl
@[simp] theorem emit_profI (e : Emission) : (emit e s).profI = s.profI := rfl
@[simp] theorem emit_dpP (e : Emission) : (emit e s).dpP = s.dpP := rfl
@[simp] theorem emit_scanIdx (e : Emission) : (emit e s).scanIdx = s.scanIdx := rfl
@[simp] theorem emit_accSum (e : Emission) : (emit e s).accSum = s.accSum := rfl
@[simp] theorem emit_accCnt (e : Emission) : (emit e s).accCnt = s.accCnt := rfl
@[simp] theorem emit_raw (e : Emission) : (emit e s).raw = s.raw := rfl
@[simp] theorem emit_otLatch (e : Emission) : (emit e s).otLatch = s.otLatch := rfl
@[simp] theorem emit_outEn (e : Emission) : (emit e s).outEn = s.outEn := rfl
@[simp] theorem emit_pwmCmpV (e : Emission) : (emit e s).pwmCmpV = s.pwmCmpV := rfl
@[simp] theorem emit_pwmCmpI (e : Emission) : (emit e s).pwmCmpI = s.pwmCmpI := rfl
@[simp] theorem emit_spV (e : Emission) : (emit e s).spV = s.spV := rfl
@[simp] theorem emit_spI (e : Emission) : (emit e s).spI = s.spI := rfl
@[simp] theorem emit_spOvp (e : Emission) : (emit e s).spOvp = s.spOvp := rfl
@[simp] theorem emit_spOcp (e : Emission) : (emit e s).spOcp = s.spOcp := rfl
@[simp] theorem emit_emitted (e : Emission) : (emit e s).emitted = s.emitted ++ [e] := rfl
@[simp] theorem emit_diagCount (e : Emission) : (emit e s).diagCount = s.diagCount := rfl
@[simp] theorem emit_script (e : Emission) : (emit e s).script = s.script := rfl

@[simp] theorem deliver_par (r : Result) : (deliver r s).par = s.par := rfl
@[simp] theorem deliver_rxM (r : Result) : (deliver r s).rxM = s.rxM := rfl
@[simp] theorem deliver_rxS (r : Result) : (deliver r s).rxS = s.rxS := rfl
@[simp] theorem deliver_profV (r : Result) : (deliver r s).profV = s.profV := rfl
@[simp] theorem deliver_profI (r : Result) : (deliver r s).profI = s.profI := rfl
@[simp] theorem deliver_dpP (r : Result) : (deliver r s).dpP = s.dpP := rfl
@[simp] theorem deliver_scanIdx (r : Result) : (deliver r s).scanIdx = s.scanIdx := rfl
@[simp] theorem deliver_accSum (r : Result) : (deliver r s).accSum = s.accSum := rfl
@[simp] theorem deliver_accCnt (r : Result) : (deliver r s).accCnt = s.accCnt := rfl
@[simp] theorem deliver_raw (r : Result) : (deliver r s).raw = s.raw := rfl
@[simp] theorem deliver_otLatch (r : Result) : (deliver r s).otLatch = s.otLatch := rfl
@[simp] theorem deliver_outEn (r : Result) : (deliver r s).outEn = s.outEn := rfl
@[simp] theorem deliver_pwmCmpV (r : Result) : (deliver r s).pwmCmpV = s.pwmCmpV := rfl
@[simp] theorem deliver_pwmCmpI (r : Result) : (deliver r s).pwmCmpI = s.pwmCmpI := rfl
@[simp] theorem deliver_spV (r : Result) : (deliver r s).spV = s.spV := rfl
@[simp] theorem deliver_spI (r : Result) : (deliver r s).spI = s.spI := rfl
@[simp] theorem deliver_spOvp (r : Result) : (deliver r s).spOvp = s.spOvp := rfl
@[simp] theorem deliver_spOcp (r : Result) : (deliver r s).spOcp = s.spOcp := rfl
@[simp] theorem deliver_emitted (r : Result) : (deliver r s).emitted = s.emitted ++ [.result r] := rfl
@[simp] theorem deliver_diagCount (r : Result) : (deliver r s).diagCount = s.diagCount := rfl
@[simp] theorem deliver_script (r : Result) : (deliver r s).script = s.script := rfl

@[simp] theorem sendFrame_par (e : End) (c : BitVec 4) (p : List Byte) : (sendFrame e c p s).par = s.par := rfl
@[simp] theorem sendFrame_rxM (e : End) (c : BitVec 4) (p : List Byte) : (sendFrame e c p s).rxM = s.rxM := rfl
@[simp] theorem sendFrame_rxS (e : End) (c : BitVec 4) (p : List Byte) : (sendFrame e c p s).rxS = s.rxS := rfl
@[simp] theorem sendFrame_profV (e : End) (c : BitVec 4) (p : List Byte) : (sendFrame e c p s).profV = s.profV := rfl
@[simp] theorem sendFrame_profI (e : End) (c : BitVec 4) (p : List Byte) : (sendFrame e c p s).profI = s.profI := rfl
@[simp] theorem sendFrame_dpP (e : End) (c : BitVec 4) (p : List Byte) : (sendFrame e c p s).dpP = s.dpP := rfl
@[simp] theorem sendFrame_scanIdx (e : End) (c : BitVec 4) (p : List Byte) : (sendFrame e c p s).scanIdx = s.scanIdx := rfl
@[simp] theorem sendFrame_accSum (e : End) (c : BitVec 4) (p : List Byte) : (sendFrame e c p s).accSum = s.accSum := rfl
@[simp] theorem sendFrame_accCnt (e : End) (c : BitVec 4) (p : List Byte) : (sendFrame e c p s).accCnt = s.accCnt := rfl
@[simp] theorem sendFrame_raw (e : End) (c : BitVec 4) (p : List Byte) : (sendFrame e c p s).raw = s.raw := rfl
@[simp] theorem sendFrame_otLatch (e : End) (c : BitVec 4) (p : List Byte) : (sendFrame e c p s).otLatch = s.otLatch := rfl
@[simp] theorem sendFrame_outEn (e : End) (c : BitVec 4) (p : List Byte) : (sendFrame e c p s).outEn = s.outEn := rfl
@[simp] theorem sendFrame_pwmCmpV (e : End) (c : BitVec 4) (p : List Byte) : (sendFrame e c p s).pwmCmpV = s.pwmCmpV := rfl
@[simp] theorem sendFrame_pwmCmpI (e : End) (c : BitVec 4) (p : List Byte) : (sendFrame e c p s).pwmCmpI = s.pwmCmpI := rfl
@[simp] theorem sendFrame_spV (e : End) (c : BitVec 4) (p : List Byte) : (sendFrame e c p s).spV = s.spV := rfl
@[simp] theorem sendFrame_spI (e : End) (c : BitVec 4) (p : List Byte) : (sendFrame e c p s).spI = s.spI := rfl
@[simp] theorem sendFrame_spOvp (e : End) (c : BitVec 4) (p : List Byte) : (sendFrame e c p s).spOvp = s.spOvp := rfl
@[simp] theorem sendFrame_spOcp (e : End) (c : BitVec 4) (p : List Byte) : (sendFrame e c p s).spOcp = s.spOcp := rfl
@[simp] theorem sendFrame_emitted (e : End) (c : BitVec 4) (p : List Byte) : (sendFrame e c p s).emitted = s.emitted ++ [.txBytes e (buildFrame c p)] := rfl
@[simp] theorem sendFrame_diagCount (e : End) (c : BitVec 4) (p : List Byte) : (sendFrame e c p s).diagCount = s.diagCount := rfl
@[simp] theorem sendFrame_script (e : End) (c : BitVec 4) (p : List Byte) : (sendFrame e c p s).script = s.script := rfl

@[simp] theorem takePowerLimit_par : (takePowerLimit s).par = s.par := rfl
@[simp] theorem takePowerLimit_rxM : (takePowerLimit s).rxM = s.rxM := rfl
@[simp] theorem takePowerLimit_rxS : (takePowerLimit s).rxS = s.rxS := rfl
@[simp] theorem takePowerLimit_profV : (takePowerLimit s).profV = s.profV := rfl
@[simp] theorem takePowerLimit_profI : (takePowerLimit s).profI = s.profI := rfl
@[simp] theorem takePowerLimit_dpP : (takePowerLimit s).dpP = s.dpP := rfl
@[simp] theorem takePowerLimit_scanIdx : (takePowerLimit s).scanIdx = s.scanIdx := rfl
@[simp] theorem takePowerLimit_accSum : (takePowerLimit s).accSum = s.accSum := rfl
@[simp] theorem takePowerLimit_accCnt : (takePowerLimit s).accCnt = s.accCnt := rfl
@[simp] theorem takePowerLimit_raw : (takePowerLimit s).raw = s.raw := rfl
@[simp] theorem takePowerLimit_otLatch : (takePowerLimit s).otLatch = s.otLatch := rfl
@[simp] theorem takePowerLimit_outEn : (takePowerLimit s).outEn = s.outEn := rfl
@[simp] theorem takePowerLimit_pwmCmpV : (takePowerLimit s).pwmCmpV = s.pwmCmpV := rfl
@[simp] theorem takePowerLimit_pwmCmpI : (takePowerLimit s).pwmCmpI = s.pwmCmpI := rfl
@[simp] theorem takePowerLimit_spV : (takePowerLimit s).spV = s.spV := rfl
@[simp] theorem takePowerLimit_spI : (takePowerLimit s).spI = s.spI := rfl
@[simp] theorem takePowerLimit_spOvp : (takePowerLimit s).spOvp = s.spOvp := rfl
@[simp] theorem takePowerLimit_spOcp : (takePowerLimit s).spOcp = s.spOcp := rfl
@[simp] theorem takePowerLimit_emitted : (takePowerLimit s).emitted = s.emitted ++ [.diag (Config.diagText s.diagCount)] := rfl
@[simp] theorem takePowerLimit_diagCount : (takePowerLimit s).diagCount = s.diagCount + 1 := rfl
@[simp] theorem takePowerLimit_script : (takePowerLimit s).script = s.script := rfl

@[simp] theorem takeOvertemp_par : (takeOvertemp s).par = s.par := rfl
@[simp] theorem takeOvertemp_rxM : (takeOvertemp s).rxM = s.rxM := rfl
@[simp] theorem takeOvertemp_rxS : (takeOvertemp s).rxS = s.rxS := rfl
@[simp] theorem takeOvertemp_profV : (takeOvertemp s).profV = s.profV := rfl
@[simp] theorem takeOvertemp_profI : (takeOvertemp s).profI = s.profI := rfl
@[simp] theorem takeOvertemp_dpP : (takeOvertemp s).dpP = s.dpP := rfl
@[simp] theorem takeOvertemp_scanIdx : (takeOvertemp s).scanIdx = s.scanIdx := rfl
@[simp] theorem takeOvertemp_accSum : (takeOvertemp s).accSum = s.accSum := rfl
@[simp] theorem takeOvertemp_accCnt : (takeOvertemp s).accCnt = s.accCnt := rfl
@[simp] theorem takeOvertemp_raw : (takeOvertemp s).raw = s.raw := rfl
@[simp] theorem takeOvertemp_otLatch : (takeOvertemp s).otLatch = true := rfl
@[simp] theorem takeOvertemp_outEn : (takeOvertemp s).outEn = false := rfl
@[simp] theorem takeOvertemp_pwmCmpV : (takeOvertemp s).pwmCmpV = s.pwmCmpV := rfl
@[simp] theorem takeOvertemp_pwmCmpI : (takeOvertemp s).pwmCmpI = s.pwmCmpI := rfl
@[simp] theorem takeOvertemp_spV : (takeOvertemp s).spV = s.spV := rfl
@[simp] theorem takeOvertemp_spI : (takeOvertemp s).spI = s.spI := rfl
@[simp] theorem takeOvertemp_spOvp : (takeOvertemp s).spOvp = s.spOvp := rfl
@[simp] theorem takeOvertemp_spOcp : (takeOvertemp s).spOcp = s.spOcp := rfl
@[simp] theorem takeOvertemp_emitted : (takeOvertemp s).emitted = s.emitted ++ [.outEn false] := rfl
@[simp] theorem takeOvertemp_diagCount : (takeOvertemp s).diagCount = s.diagCount := rfl
@[simp] theorem takeOvertemp_script : (takeOvertemp s).script = s.script := rfl

@[simp] theorem driveEnable_par (r : Bool) : (driveEnable r s).par = s.par := rfl
@[simp] theorem driveEnable_rxM (r : Bool) : (driveEnable r s).rxM = s.rxM := rfl
@[simp] theorem driveEnable_rxS (r : Bool) : (driveEnable r s).rxS = s.rxS := rfl
@[simp] theorem driveEnable_profV (r : Bool) : (driveEnable r s).profV = s.profV := rfl
@[simp] theorem driveEnable_profI (r : Bool) : (driveEnable r s).profI = s.profI := rfl
@[simp] theorem driveEnable_dpP (r : Bool) : (driveEnable r s).dpP = s.dpP := rfl
@[simp] theorem driveEnable_scanIdx (r : Bool) : (driveEnable r s).scanIdx = s.scanIdx := rfl
@[simp] theorem driveEnable_accSum (r : Bool) : (driveEnable r s).accSum = s.accSum := rfl
@[simp] theorem driveEnable_accCnt (r : Bool) : (driveEnable r s).accCnt = s.accCnt := rfl
@[simp] theorem driveEnable_raw (r : Bool) : (driveEnable r s).raw = s.raw := rfl
@[simp] theorem driveEnable_otLatch (r : Bool) : (driveEnable r s).otLatch = s.otLatch := rfl
@[simp] theorem driveEnable_outEn (r : Bool) : (driveEnable r s).outEn = gatedEnable s.otLatch r := rfl
@[simp] theorem driveEnable_pwmCmpV (r : Bool) : (driveEnable r s).pwmCmpV = s.pwmCmpV := rfl
@[simp] theorem driveEnable_pwmCmpI (r : Bool) : (driveEnable r s).pwmCmpI = s.pwmCmpI := rfl
@[simp] theorem driveEnable_spV (r : Bool) : (driveEnable r s).spV = s.spV := rfl
@[simp] theorem driveEnable_spI (r : Bool) : (driveEnable r s).spI = s.spI := rfl
@[simp] theorem driveEnable_spOvp (r : Bool) : (driveEnable r s).spOvp = s.spOvp := rfl
@[simp] theorem driveEnable_spOcp (r : Bool) : (driveEnable r s).spOcp = s.spOcp := rfl
@[simp] theorem driveEnable_emitted (r : Bool) : (driveEnable r s).emitted = s.emitted ++ [.outEn (gatedEnable s.otLatch r)] := rfl
@[simp] theorem driveEnable_diagCount (r : Bool) : (driveEnable r s).diagCount = s.diagCount := rfl
@[simp] theorem driveEnable_script (r : Bool) : (driveEnable r s).script = s.script := rfl

@[simp] theorem setCodec_par (e : End) (c : Codec) : (setCodec e c s).par = s.par := by cases e <;> rfl
@[simp] theorem setCodec_profV (e : End) (c : Codec) : (setCodec e c s).profV = s.profV := by cases e <;> rfl
@[simp] theorem setCodec_profI (e : End) (c : Codec) : (setCodec e c s).profI = s.profI := by cases e <;> rfl
@[simp] theorem setCodec_dpP (e : End) (c : Codec) : (setCodec e c s).dpP = s.dpP := by cases e <;> rfl
@[simp] theorem setCodec_scanIdx (e : End) (c : Codec) : (setCodec e c s).scanIdx = s.scanIdx := by cases e <;> rfl
@[simp] theorem setCodec_accSum (e : End) (c : Codec) : (setCodec e c s).accSum = s.accSum := by cases e <;> rfl
@[simp] theorem setCodec_accCnt (e : End) (c : Codec) : (setCodec e c s).accCnt = s.accCnt := by cases e <;> rfl
@[simp] theorem setCodec_raw (e : End) (c : Codec) : (setCodec e c s).raw = s.raw := by cases e <;> rfl
@[simp] theorem setCodec_otLatch (e : End) (c : Codec) : (setCodec e c s).otLatch = s.otLatch := by cases e <;> rfl
@[simp] theorem setCodec_outEn (e : End) (c : Codec) : (setCodec e c s).outEn = s.outEn := by cases e <;> rfl
@[simp] theorem setCodec_pwmCmpV (e : End) (c : Codec) : (setCodec e c s).pwmCmpV = s.pwmCmpV := by cases e <;> rfl
@[simp] theorem setCodec_pwmCmpI (e : End) (c : Codec) : (setCodec e c s).pwmCmpI = s.pwmCmpI := by cases e <;> rfl
@[simp] theorem setCodec_spV (e : End) (c : Codec) : (setCodec e c s).spV = s.spV := by cases e <;> rfl
@[simp] theorem setCodec_spI (e : End) (c : Codec) : (setCodec e c s).spI = s.spI := by cases e <;> rfl
@[simp] theorem setCodec_spOvp (e : End) (c : Codec) : (setCodec e c s).spOvp = s.spOvp := by cases e <;> rfl
@[simp] theorem setCodec_spOcp (e : End) (c : Codec) : (setCodec e c s).spOcp = s.spOcp := by cases e <;> rfl
@[simp] theorem setCodec_emitted (e : End) (c : Codec) : (setCodec e c s).emitted = s.emitted := by cases e <;> rfl
@[simp] theorem setCodec_diagCount (e : End) (c : Codec) : (setCodec e c s).diagCount = s.diagCount := by cases e <;> rfl
@[simp] theorem setCodec_script (e : End) (c : Codec) : (setCodec e c s).script = s.script := by cases e <;> rfl

@[simp] theorem setCodec_slave_rxS (c : Codec) : (setCodec .slave c s).rxS = c := rfl
@[simp] theorem setCodec_slave_rxM (c : Codec) : (setCodec .slave c s).rxM = s.rxM := rfl
@[simp] theorem setCodec_master_rxM (c : Codec) : (setCodec .master c s).rxM = c := rfl
@[simp] theorem setCodec_master_rxS (c : Codec) : (setCodec .master c s).rxS = s.rxS := rfl
@[simp] theorem codecAt_setCodec (e : End) (c : Codec) : codecAt e (setCodec e c s) = c := by cases e <;> rfl
@[simp] theorem codecAt_slave : codecAt .slave s = s.rxS := rfl
@[simp] theorem codecAt_master : codecAt .master s = s.rxM := rfl

@[simp] theorem setProfile_par (k : Quantity) (p : Profile) : (setProfile k p s).par = s.par := by cases k <;> rfl
@[simp] theorem setProfile_rxM (k : Quantity) (p : Profile) : (setProfile k p s).rxM = s.rxM := by cases k <;> rfl
@[simp] theorem setProfile_rxS (k : Quantity) (p : Profile) : (setProfile k p s).rxS = s.rxS := by cases k <;> rfl
@[simp] theorem setProfile_dpP (k : Quantity) (p : Profile) : (setProfile k p s).dpP = s.dpP := by cases k <;> rfl
@[simp] theorem setProfile_scanIdx (k : Quantity) (p : Profile) : (setProfile k p s).scanIdx = s.scanIdx := by cases k <;> rfl
@[simp] theorem setProfile_accSum (k : Quantity) (p : Profile) : (setProfile k p s).accSum = s.accSum := by cases k <;> rfl
@[simp] theorem setProfile_accCnt (k : Quantity) (p : Profile) : (setProfile k p s).accCnt = s.accCnt := by cases k <;> rfl
@[simp] theorem setProfile_raw (k : Quantity) (p : Profile) : (setProfile k p s).raw = s.raw := by cases k <;> rfl
@[simp] theorem setProfile_otLatch (k : Quantity) (p : Profile) : (setProfile k p s).otLatch = s.otLatch := by cases k <;> rfl
@[simp] theorem setProfile_outEn (k : Quantity) (p : Profile) : (setProfile k p s).outEn = s.outEn := by cases k <;> rfl
@[simp] theorem setProfile_pwmCmpV (k : Quantity) (p : Profile) : (setProfile k p s).pwmCmpV = s.pwmCmpV := by cases k <;> rfl
@[simp] theorem setProfile_pwmCmpI (k : Quantity) (p : Profile) : (setProfile k p s).pwmCmpI = s.pwmCmpI := by cases k <;> rfl
@[simp] theorem setProfile_spV (k : Quantity) (p : Profile) : (setProfile k p s).spV = s.spV := by cases k <;> rfl
@[simp] theorem setProfile_spI (k : Quantity) (p : Profile) : (setProfile k p s).spI = s.spI := by cases k <;> rfl
@[simp] theorem setProfile_spOvp (k : Quantity) (p : Profile) : (setProfile k p s).spOvp = s.spOvp := by cases k <;> rfl
@[simp] theorem setProfile_spOcp (k : Quantity) (p : Profile) : (setProfile k p s).spOcp = s.spOcp := by cases k <;> rfl
@[simp] theorem setProfile_emitted (k : Quantity) (p : Profile) : (setProfile k p s).emitted = s.emitted := by cases k <;> rfl
@[simp] theorem setProfile_diagCount (k : Quantity) (p : Profile) : (setProfile k p s).diagCount = s.diagCount := by cases k <;> rfl
@[simp] theorem setProfile_script (k : Quantity) (p : Profile) : (setProfile k p s).script = s.script := by cases k <;> rfl

@[simp] theorem profileAt_setProfile (k : Quantity) (p : Profile) : profileAt k (setProfile k p s) = p := by cases k <;> rfl

theorem profileAt_setProfile_of_ne {j k : Quantity} (h : j ≠ k) (p : Profile) :
    profileAt j (setProfile k p s) = profileAt j s := by
  cases j <;> cases k <;> first | rfl | exact absurd rfl h

@[simp] theorem setProfile_voltage_profV (p : Profile) : (setProfile .voltage p s).profV = p := rfl
@[simp] theorem setProfile_voltage_profI (p : Profile) : (setProfile .voltage p s).profI = s.profI := rfl
@[simp] theorem setProfile_current_profI (p : Profile) : (setProfile .current p s).profI = p := rfl
@[simp] theorem setProfile_current_profV (p : Profile) : (setProfile .current p s).profV = s.profV := rfl

@[simp] theorem loadCompare_par (k : Quantity) (c : Nat) : (loadCompare k c s).par = s.par := by cases k <;> rfl
@[simp] theorem loadCompare_rxM (k : Quantity) (c : Nat) : (loadCompare k c s).rxM = s.rxM := by cases k <;> rfl
@[simp] theorem loadCompare_rxS (k : Quantity) (c : Nat) : (loadCompare k c s).rxS = s.rxS := by cases k <;> rfl
@[simp] theorem loadCompare_profV (k : Quantity) (c : Nat) : (loadCompare k c s).profV = s.profV := by cases k <;> rfl
@[simp] theorem loadCompare_profI (k : Quantity) (c : Nat) : (loadCompare k c s).profI = s.profI := by cases k <;> rfl
@[simp] theorem loadCompare_dpP (k : Quantity) (c : Nat) : (loadCompare k c s).dpP = s.dpP := by cases k <;> rfl
@[simp] theorem loadCompare_scanIdx (k : Quantity) (c : Nat) : (loadCompare k c s).scanIdx = s.scanIdx := by cases k <;> rfl
@[simp] theorem loadCompare_accSum (k : Quantity) (c : Nat) : (loadCompare k c s).accSum = s.accSum := by cases k <;> rfl
@[simp] theorem loadCompare_accCnt (k : Quantity) (c : Nat) : (loadCompare k c s).accCnt = s.accCnt := by cases k <;> rfl
@[simp] theorem loadCompare_raw (k : Quantity) (c : Nat) : (loadCompare k c s).raw = s.raw := by cases k <;> rfl
@[simp] theorem loadCompare_otLatch (k : Quantity) (c : Nat) : (loadCompare k c s).otLatch = s.otLatch := by cases k <;> rfl
@[simp] theorem loadCompare_outEn (k : Quantity) (c : Nat) : (loadCompare k c s).outEn = s.outEn := by cases k <;> rfl
@[simp] theorem loadCompare_spV (k : Quantity) (c : Nat) : (loadCompare k c s).spV = s.spV := by cases k <;> rfl
@[simp] theorem loadCompare_spI (k : Quantity) (c : Nat) : (loadCompare k c s).spI = s.spI := by cases k <;> rfl
@[simp] theorem loadCompare_spOvp (k : Quantity) (c : Nat) : (loadCompare k c s).spOvp = s.spOvp := by cases k <;> rfl
@[simp] theorem loadCompare_spOcp (k : Quantity) (c : Nat) : (loadCompare k c s).spOcp = s.spOcp := by cases k <;> rfl
@[simp] theorem loadCompare_diagCount (k : Quantity) (c : Nat) : (loadCompare k c s).diagCount = s.diagCount := by cases k <;> rfl
@[simp] theorem loadCompare_script (k : Quantity) (c : Nat) : (loadCompare k c s).script = s.script := by cases k <;> rfl

@[simp] theorem loadCompare_voltage_pwmCmpV (c : Nat) : (loadCompare .voltage c s).pwmCmpV = c := rfl
@[simp] theorem loadCompare_voltage_pwmCmpI (c : Nat) : (loadCompare .voltage c s).pwmCmpI = s.pwmCmpI := rfl
@[simp] theorem loadCompare_current_pwmCmpI (c : Nat) : (loadCompare .current c s).pwmCmpI = c := rfl
@[simp] theorem loadCompare_current_pwmCmpV (c : Nat) : (loadCompare .current c s).pwmCmpV = s.pwmCmpV := rfl
@[simp] theorem loadCompare_voltage_emitted (c : Nat) :
    (loadCompare .voltage c s).emitted = s.emitted ++ [.pwmCmpV c] := rfl
@[simp] theorem loadCompare_current_emitted (c : Nat) :
    (loadCompare .current c s).emitted = s.emitted ++ [.pwmCmpI c] := rfl

@[simp] theorem readingAt_publish (j : Channel) (v : Nat) (r : RawStore) : readingAt j (publish j v r) = ⟨v, true⟩ := by
  cases j <;> rfl

theorem readingAt_publish_of_ne {i j : Channel} (h : i ≠ j) (v : Nat) (r : RawStore) :
    readingAt i (publish j v r) = readingAt i r := by
  cases i <;> cases j <;> first | rfl | exact absurd rfl h

end Sys2Proof.Machine
end

