-- ==== Sys2Proof/Laws/Ops.lean ====
section
/-!
SUPPORT. What each shared operation can do, said once: inversion lemmas ("if it answers a next state, then ..."), so that a
proof about an event cites them and unfolds nothing.
-/
namespace Sys2Proof.Machine

/-! ### Sequencing -/

@[simp] theorem andThen_next (s : State) (f : State → Out) : andThen (.next s) f = f s := rfl
@[simp] theorem andThen_fault (r : Fault) (f : State → Out) : andThen (.fault r) f = .fault r := rfl
@[simp] theorem andThen_refused (r : Refusal) (f : State → Out) : andThen (.refused r) f = .refused r := rfl
@[simp] theorem orRefuse_ok {α : Type} (a : α) (f : α → Out) : orRefuse (.ok a) f = f a := rfl
@[simp] theorem orRefuse_error {α : Type} (r : Refusal) (f : α → Out) : orRefuse (.error r) f = .refused r := rfl

theorem andThen_eq_next {o : Out} {f : State → Out} {t : State} :
    andThen o f = .next t ↔ ∃ s, o = .next s ∧ f s = .next t := by
  cases o <;> simp

theorem andThen_eq_fault {o : Out} {f : State → Out} {r : Fault} :
    andThen o f = .fault r ↔ o = .fault r ∨ ∃ s, o = .next s ∧ f s = .fault r := by
  cases o <;> simp

theorem andThen_assoc (o : Out) (f g : State → Out) :
    andThen (andThen o f) g = andThen o fun s => andThen (f s) g := by
  cases o <;> rfl

theorem orRefuse_eq_next {α : Type} {v : Except Refusal α} {f : α → Out} {t : State} :
    orRefuse v f = .next t ↔ ∃ a, v = .ok a ∧ f a = .next t := by
  cases v <;> simp

theorem orRefuse_ne_fault {α : Type} {v : Except Refusal α} {f : α → Out} {r : Fault} (h : ∀ a, f a ≠ .fault r) :
    orRefuse v f ≠ .fault r := by
  cases v <;> simp [h]

/-! ### Bit fields and byte order -/

theorem headerLen_headerByte (c n : BitVec 4) : headerLen (headerByte c n) = n := by
  revert c n; decide

theorem headerClass_headerByte (c n : BitVec 4) : headerClass (headerByte c n) = c := by
  revert c n; decide

theorem headerByte_class_len (h : Byte) : headerByte (headerClass h) (headerLen h) = h := by
  revert h; decide

theorem headerLen_toNat (h : Byte) : (headerLen h).toNat = h.toNat % 16 := by simp [headerLen]

theorem headerClass_toNat (h : Byte) : (headerClass h).toNat = h.toNat / 16 := by
  have : h.toNat / 16 < 16 := by omega
  simp [headerClass, Nat.shiftRight_eq_div_pow, Nat.mod_eq_of_lt this]

theorem headerByte_toNat (c n : BitVec 4) : (headerByte c n).toNat = 16 * c.toNat + n.toNat := by
  revert c n; decide

theorem unBE16_toNat (h l : Byte) : (unBE16 h l).toNat = 256 * h.toNat + l.toNat := by
  rw [unBE16, BitVec.toNat_append, ← Nat.shiftLeft_add_eq_or_of_lt l.isLt, Nat.shiftLeft_eq]
  omega

theorem unBE16_be16 (v : Half) : unBE16 (v.extractLsb' 8 8) (v.extractLsb' 0 8) = v := by
  apply BitVec.eq_of_toNat_eq
  have := v.isLt
  simp [unBE16_toNat, Nat.shiftRight_eq_div_pow]
  omega

theorem be16_unBE16 (h l : Byte) : be16 (unBE16 h l) = [h, l] := by
  have hh := h.isLt
  have hl := l.isLt
  simp only [be16, List.cons.injEq, and_true]
  constructor <;> apply BitVec.eq_of_toNat_eq <;>
    simp [unBE16_toNat, Nat.shiftRight_eq_div_pow] <;> omega

@[simp] theorem be16_length (v : Half) : (be16 v).length = 2 := rfl

@[simp] theorem be32_length (v : Word) : (be32 v).length = 4 := rfl

theorem unBE32_toNat (a b c d : Byte) :
    (unBE32 a b c d).toNat = 16777216 * a.toNat + 65536 * b.toNat + 256 * c.toNat + d.toNat := by
  rw [unBE32, BitVec.toNat_append, ← Nat.shiftLeft_add_eq_or_of_lt d.isLt, Nat.shiftLeft_eq, BitVec.toNat_append,
    ← Nat.shiftLeft_add_eq_or_of_lt c.isLt, Nat.shiftLeft_eq, BitVec.toNat_append,
    ← Nat.shiftLeft_add_eq_or_of_lt b.isLt, Nat.shiftLeft_eq]
  omega

theorem unBE32_be32 (v : Word) :
    unBE32 (v.extractLsb' 24 8) (v.extractLsb' 16 8) (v.extractLsb' 8 8) (v.extractLsb' 0 8) = v := by
  apply BitVec.eq_of_toNat_eq
  have := v.isLt
  simp [unBE32_toNat, Nat.shiftRight_eq_div_pow]
  omega

theorem cksum_append (s t : List Byte) : cksum (s ++ t) = cksum s + cksum t := by
  induction s with
  | nil => simp [cksum]
  | cons b bs ih => simp [cksum, ih, BitVec.add_assoc]

@[simp] theorem buildFrame_length (c : BitVec 4) (p : List Byte) : (buildFrame c p).length = p.length + 2 := by
  simp [buildFrame]

/-! ### The receiver -/

@[simp] theorem accumulated_discardBuffer (c : Codec) : accumulated (discardBuffer c) = [] := by
  simp [accumulated, discardBuffer]

@[simp] theorem pushByte_rxlen (b : Byte) (c : Codec) : (pushByte b c).rxlen = c.rxlen + 1 := rfl
@[simp] theorem discardBuffer_rxlen (c : Codec) : (discardBuffer c).rxlen = 0 := rfl
@[simp] theorem discardBuffer_rxbuf (c : Codec) : (discardBuffer c).rxbuf = c.rxbuf := rfl

/-- Within its capacity the buffer accumulates in order. -/
theorem accumulated_pushByte (b : Byte) (c : Codec) (h : c.rxlen < 16) :
    accumulated (pushByte b c) = accumulated c ++ [b] := by
  obtain ⟨buf, n⟩ := c
  simp only [accumulated, pushByte] at *
  have hl : buf.toList.length = 16 := by simp
  have hs : (buf.setIfInBounds n b).toList = buf.toList.set n b := by
    simp [← Vector.toList_toArray, Vector.toArray_setIfInBounds, Array.toList_setIfInBounds]
  rw [hs, List.take_add_one, List.take_set_of_le (Nat.le_refl n), List.getElem?_set_self (by omega)]
  rfl

theorem accumulated_length (c : Codec) (h : c.rxlen ≤ 16) : (accumulated c).length = c.rxlen := by
  simp [accumulated, h]

/-- What RXBYTE can do: still Incomplete, Invalid, or Complete and dispatched. -/
theorem receiveByte_cases (d : End) (b : Byte) (s : State) :
    (verdictOf (accumulated (pushByte b (codecAt d s))) = .incomplete ∧
      receiveByte d b s = .next (setCodec d (pushByte b (codecAt d s)) s)) ∨
    (verdictOf (accumulated (pushByte b (codecAt d s))) = .invalid ∧
      receiveByte d b s =
        .next (emit (.frameOut d .invalid) (setCodec d (discardBuffer (pushByte b (codecAt d s))) s))) ∨
    (∃ cls p, verdictOf (accumulated (pushByte b (codecAt d s))) = .complete cls p ∧
      receiveByte d b s = dispatch d cls p
        (emit (.frameOut d (.complete cls p)) (setCodec d (discardBuffer (pushByte b (codecAt d s))) s))) := by
  unfold receiveByte
  cases h : verdictOf (accumulated (pushByte b (codecAt d s))) with
  | incomplete => simp [h]
  | invalid => simp [h]
  | complete c p => simp [h]

/-- A property every received byte keeps is kept by a whole frame. -/
theorem receiveBytes_keeps {d : End} (P : State → State → Prop) (hrefl : ∀ s, P s s)
    (htrans : ∀ r s t, P r s → P s t → P r t) (hstep : ∀ b s t, receiveByte d b s = .next t → P s t)
    (bs : List Byte) (s t : State) (h : receiveBytes d bs s = .next t) : P s t := by
  induction bs generalizing s with
  | nil => obtain rfl : s = t := by simpa [receiveBytes] using h
           exact hrefl s
  | cons b bs ih =>
    obtain ⟨u, hu, ht⟩ := andThen_eq_next.mp h
    exact htrans s u t (hstep b s u hu) (ih u ht)

theorem receiveBytes_append (d : End) (xs ys : List Byte) (s : State) :
    receiveBytes d (xs ++ ys) s = andThen (receiveBytes d xs s) (receiveBytes d ys) := by
  induction xs generalizing s with
  | nil => rfl
  | cons b bs ih =>
    rw [List.cons_append, receiveBytes, receiveBytes, andThen_assoc]
    congr 1
    funext u
    exact ih u

/-! ### The converter -/

theorem calProduct_eq_ok {pol : OvfPolicy} {g x n t : Nat} (h : calProduct pol g x n = .ok t) :
    t < 2 ^ 32 ∧ (g * x + 2 ^ n / 2 < 2 ^ 32 → t = g * x + 2 ^ n / 2) := by
  unfold calProduct at h
  by_cases hb : g * x + 2 ^ n / 2 < 2 ^ 32
  · rw [if_pos hb] at h
    obtain rfl := Except.ok.inj h
    exact ⟨hb, fun _ => rfl⟩
  · rw [if_neg hb] at h
    cases pol with
    | refuse => cases h
    | wrap32 =>
      obtain rfl := Except.ok.inj h
      exact ⟨Nat.mod_lt _ (by decide), fun h' => absurd h' hb⟩

/-- A compare value is within the period. -/
theorem percentToPwm_le {p : Params} {i : SetCal} {x c : Nat} (h : percentToPwm p i x = .ok c) : c ≤ p.pwmPeriod := by
  unfold percentToPwm at h
  split at h
  · simp at h
  · split at h
    · simp at h
    · obtain rfl : _ = c := by simpa using h
      omega

/-! ### The PWM driver and the interlock -/

theorem pwmSet_eq_next {k : Quantity} {x : Nat} {s t : State} :
    pwmSet k x s = .next t ↔ ∃ c, percentToPwm s.par (setCalOfQuantity k) x = .ok c ∧ t = loadCompare k c s := by
  simp [pwmSet, orRefuse_eq_next, eq_comm (a := t)]

/-- The interlock's two results. -/
theorem evalInterlock_cases (r : Nat) (s : State) :
    (r < s.par.otThresh ∧ evalInterlock r s = takeOvertemp s) ∨
    (s.par.otThresh ≤ r ∧ evalInterlock r s = { s with otLatch := false }) := by
  unfold evalInterlock
  split
  · exact .inl ⟨‹_›, rfl⟩
  · exact .inr ⟨by omega, rfl⟩

/-- ADCEVT's three results: ignored, accumulated, or the end of a burst. -/
theorem execAdcevt_eq_next {d : Bool} {c : BitVec 19} {s t : State} (h : execAdcevt d c s = .next t) :
    (d = false ∧ t = s) ∨ (d = true ∧ c.toNat < 2 ^ s.par.adcBits ∧ t = accumulate c s) := by
  unfold execAdcevt at h
  cases d
  · exact .inl ⟨rfl, by simpa [eq_comm] using h⟩
  · simp only [reduceCtorEq, if_false] at h
    split at h
    · simp at h
    · exact .inr ⟨rfl, by omega, by simpa [eq_comm] using h⟩

/-- OTEVAL on its own: the published temperature reading evaluated again, or nothing. -/
theorem execOteval_cases (r : Word) (s : State) :
    (isPublishedTemperature r s = true ∧ execOteval r s = .next (evalInterlock r.toNat s)) ∨
    (isPublishedTemperature r s = false ∧ execOteval r s = .next s) := by
  unfold execOteval
  cases isPublishedTemperature r s <;> simp

theorem isPublishedTemperature_iff (r : Word) (s : State) :
    isPublishedTemperature r s = true ↔
      s.raw.temperature.published = true ∧ s.raw.temperature.value = r.toNat := by
  simp [isPublishedTemperature, readingAt]

/-- DP[P] after MKPROFILE: the sum once both kinds are written, else what it was. -/
theorem powerPlaces_cases (v i : Profile) (old : BitVec 3) :
    (v.written = true ∧ i.written = true ∧ (powerPlaces v i old).toNat = v.dp.toNat + i.dp.toNat) ∨
    ((v.written = false ∨ i.written = false) ∧ powerPlaces v i old = old) := by
  unfold powerPlaces
  have hv := v.dp.isLt
  have hi := i.dp.isLt
  cases v.written <;> cases i.written <;> simp
  omega

/-! ### The dispatcher -/

theorem updateVoltage_eq_next {v : Half} {s t : State} :
    updateVoltage v s = .next t ↔
      (v = s.spV ∧ t = s) ∨
      (v ≠ s.spV ∧ ∃ c, percentToPwm s.par .vset v.toNat = .ok c ∧ t = loadCompare .voltage c { s with spV := v }) := by
  unfold updateVoltage
  split
  · simp_all [eq_comm]
  · simp_all [pwmSet_eq_next, setCalOfQuantity]

theorem updateCurrent_eq_next {i : Half} {s t : State} :
    updateCurrent i s = .next t ↔
      (i = s.spI ∧ t = s) ∨
      (i ≠ s.spI ∧ ∃ c, percentToPwm s.par .iset i.toNat = .ok c ∧ t = loadCompare .current c { s with spI := i }) := by
  unfold updateCurrent
  split
  · simp_all [eq_comm]
  · simp_all [pwmSet_eq_next, setCalOfQuantity]

/-- Applying a request: rejected by the power limit, or both fields updated and the enable driven. -/
theorem applySetpoint_eq_next {o : Bool} {v i : Half} {s t : State} (h : applySetpoint o v i s = .next t) :
    (s.par.maxPower < powerTerm v i ∧ t = takePowerLimit s) ∨
    (powerTerm v i ≤ s.par.maxPower ∧
      ∃ a b, updateVoltage v s = .next a ∧ updateCurrent i a = .next b ∧ t = driveEnable o b) := by
  unfold applySetpoint at h
  split at h
  · exact .inl ⟨‹_›, by simpa [eq_comm] using h⟩
  · obtain ⟨a, ha, h⟩ := andThen_eq_next.mp h
    obtain ⟨b, hb, h⟩ := andThen_eq_next.mp h
    exact .inr ⟨by omega, a, b, ha, hb, by simpa [eq_comm] using h⟩

/-- A response that is sent changes nothing but what was emitted. -/
theorem respond_eq_next {s t : State} (h : respond s = .next t) :
    ∃ rv ri, raw2pctValue .vread .voltage s = .ok rv ∧ raw2pctValue .iread .current s = .ok ri ∧
      t = sendFrame .slave 1 (responseStatus rv s :: (be16 rv ++ be16 ri ++ [0])) s := by
  obtain ⟨rv, hv, h⟩ := orRefuse_eq_next.mp h
  obtain ⟨ri, hi, h⟩ := orRefuse_eq_next.mp h
  exact ⟨rv, ri, hv, hi, by simpa [eq_comm] using h⟩

/-- SETPOINT's next states: a payload of another length ignored, or a request applied or rejected and then answered. -/
theorem runSetpoint_eq_next {p : List Byte} {s t : State} (h : runSetpoint p s = .next t) :
    (setpointFields s.par.setpointReqReserved p = none ∧ t = s) ∨
    ∃ o v i u, setpointFields s.par.setpointReqReserved p = some (o, v, i) ∧ o.toNat ≤ 1 ∧
      applySetpoint (o == 1) v i s = .next u ∧ respond u = .next t := by
  unfold runSetpoint at h
  cases hf : setpointFields s.par.setpointReqReserved p with
  | none => exact .inl ⟨rfl, by simpa [hf, eq_comm] using h⟩
  | some f =>
    obtain ⟨o, v, i⟩ := f
    simp only [hf] at h
    split at h
    · simp at h
    · obtain ⟨u, hu, h⟩ := andThen_eq_next.mp h
      exact .inr ⟨o, v, i, u, rfl, by omega, hu, h⟩

/-- OBJGET sends one frame or nothing. -/
theorem runObjget_cases (p : List Byte) (s : State) :
    (∃ id, p = [id] ∧ runObjget p s = sendFrame .slave 8 (objectPayload id s) s) ∨ runObjget p s = s := by
  unfold runObjget
  split
  · exact .inl ⟨_, rfl, rfl⟩
  · exact .inr rfl

/-- What a dispatch can do. -/
theorem dispatch_eq_next {d : End} {c : BitVec 4} {p : List Byte} {s t : State} (h : dispatch d c p s = .next t) :
    t = s ∨ (d = .slave ∧ c = 1 ∧ runSetpoint p s = .next t) ∨ (d = .slave ∧ c = 8 ∧ t = runObjget p s) := by
  unfold dispatch at h
  cases d with
  | master => exact .inl (by simpa [eq_comm] using h)
  | slave =>
    simp only at h
    split at h
    · exact .inr (.inl ⟨rfl, ‹_›, h⟩)
    · split at h
      · exact .inr (.inr ⟨rfl, ‹_›, by simpa [eq_comm] using h⟩)
      · exact .inl (by simpa [eq_comm] using h)

end Sys2Proof.Machine
end

