-- ==== Sys2Proof/Laws/Decode.lean ====
section
/-!
SUPPORT. Each reader of the decoder gives back the operand its encoder wrote, and each reader's length of input.
-/
namespace Sys2Proof

open Sys2Proof.Machine

@[simp] theorem decoded_ok_bind {α β : Type} (a : α) (f : α → Except DecodeError β) :
    (Except.ok a >>= f) = f a := rfl

@[simp] theorem read8_cons (b : Byte) (r : List Byte) : read8 (b :: r) = .ok (b, r) := rfl

@[simp] theorem read16_be16 (v : Half) (r : List Byte) : read16 (be16 v ++ r) = .ok (v, r) := by
  simp [be16, read16, unBE16_be16]

@[simp] theorem read32_be32 (v : Word) (r : List Byte) : read32 (be32 v ++ r) = .ok (v, r) := by
  simp [be32, read32, unBE32_be32]

theorem readList_append (p r : List Byte) : readList p.length (p ++ r) = .ok (p, r) := by
  simp [readList]

@[simp] theorem readName_end (row : String) (e : End) (r : List Byte) :
    readName row endOf (endByte e :: r) = .ok (e, r) := by
  cases e <;> rfl

@[simp] theorem readName_bool (row : String) (b : Bool) (r : List Byte) :
    readName row boolOf (boolByte b :: r) = .ok (b, r) := by
  cases b <;> rfl

@[simp] theorem readName_quantity (row : String) (q : Quantity) (r : List Byte) :
    readName row quantityOf (quantityByte q :: r) = .ok (q, r) := by
  cases q <;> rfl

@[simp] theorem readName_kind (row : String) (k : Kind) (r : List Byte) :
    readName row kindOf (kindByte k :: r) = .ok (k, r) := by
  rcases k with (_ | _) | _ <;> rfl

@[simp] theorem readName_readCal (row : String) (i : ReadCal) (r : List Byte) :
    readName row readCalOf (readCalByte i :: r) = .ok (i, r) := by
  cases i <;> rfl

@[simp] theorem readName_setCal (row : String) (i : SetCal) (r : List Byte) :
    readName row setCalOf (setCalByte i :: r) = .ok (i, r) := by
  cases i <;> rfl

@[simp] theorem readName_channel (row : String) (j : Channel) (r : List Byte) :
    readName row channelOf (channelByte j :: r) = .ok (j, r) := by
  cases j <;> rfl

@[simp] theorem readCode_codeBytes (c : BitVec 19) (r : List Byte) : readCode (codeBytes c ++ r) = .ok (c, r) := by
  have hc := c.isLt
  simp only [codeBytes, List.cons_append, List.nil_append, readCode]
  rw [if_pos]
  · congr 2
    apply BitVec.eq_of_toNat_eq
    rw [BitVec.toNat_append, ← Nat.shiftLeft_add_eq_or_of_lt (BitVec.isLt _), BitVec.toNat_append,
      ← Nat.shiftLeft_add_eq_or_of_lt (BitVec.isLt _)]
    simp [Nat.shiftLeft_eq, Nat.shiftRight_eq_div_pow]
    omega
  · simp [Nat.shiftRight_eq_div_pow]
    omega

/-- A wire frame behind its end byte is read by the frame decoder of that end. -/
theorem decode_endByte (d : End) (r : List Byte) : decode (endByte d :: r) = decodeFrame d r := by
  cases d <;> rfl

/-- The frame decoder takes exactly the N bytes the header announces. -/
theorem decodeFrame_append (d : End) (h : Byte) (body r : List Byte) (hl : body.length = h.toNat % 16) :
    decodeFrame d (h :: (body ++ r)) = .ok (frameAt d h body, r) := by
  have : (headerLen h).toNat = body.length := by rw [headerLen_toNat, hl]
  simp [decodeFrame, this, readList_append, pure, Except.pure]

/-- A frame row runs as the arrival of its wire bytes. -/
theorem exec_of_wireBytes (i : Instr) (d : End) (bs : List Byte) (s : State) (h : wireBytes i = some (d, bs)) :
    exec i s = receiveBytes d bs s := by
  cases i <;> simp [wireBytes] at h <;> obtain ⟨rfl, rfl⟩ := h <;> rfl

/-- A well-formed frame row has as many bytes after its header as the header says. -/
theorem wireBytes_body_length (i : Instr) (d : End) (h : Byte) (body : List Byte) (hw : i.wellFormed = true)
    (he : wireBytes i = some (d, h :: body)) : body.length = h.toNat % 16 := by
  cases i <;> simp [wireBytes] at he <;> obtain ⟨rfl, rfl, rfl⟩ := he <;> try simp
  simp [Instr.wellFormed] at hw
  rw [← headerLen_toNat, headerLen_headerByte, hw.1]

end Sys2Proof
end

