-- ==== Sys2Proof/Laws/PerInstr.lean ====
section
/-!
SUPPORT. Statements about every instruction as syntax, one lemma a constructor. `RowTag`: the encoding of an instruction
begins with the byte that names its row, or, for a frame row, its receiving end.
-/
namespace Sys2Proof.Laws.RowTag

/-- The first byte of an instruction in the script. -/
def firstByte : Instr → Byte
  | .frameHdr dst _ _ _ => endByte dst
  | .setpointReq _ _ _ _ => endByte .slave
  | .setpointReqAlt _ _ _ _ => endByte .slave
  | .setpointRsp _ _ _ _ => endByte .master
  | .objgetReq _ _ => endByte .slave
  | .objgetRspData _ _ _ => endByte .master
  | .objgetRspNodata _ _ => endByte .master
  | .cksum _ => 0x10
  | .encode _ _ _ => 0x11
  | .decode _ => 0x12
  | .rxbyte _ _ => 0x13
  | .rxidle _ => 0x14
  | .mkprofile _ _ _ => 0x15
  | .d2p _ _ => 0x16
  | .p2d _ _ => 0x17
  | .raw2pct _ _ => 0x18
  | .pct2pwm _ _ => 0x19
  | .adcevt _ _ => 0x1A
  | .oteval _ => 0x1B
  | .pwmset _ _ => 0x1C
  | .outen _ => 0x1D
  | .setpoint _ => 0x1E
  | .objget _ => 0x1F
  | .setreq _ _ _ => 0x20
  | .objreq _ => 0x21

/-- The encoding begins with it. -/
def Statement (i : Instr) : Prop := (encode i).head? = some (firstByte i)

theorem frameHdr (dst : End) (cls n : BitVec 4) (body : List Byte) : Statement (.frameHdr dst cls n body) := rfl
theorem setpointReq (onoff : Bool) (v i : Half) (k : Byte) : Statement (.setpointReq onoff v i k) := rfl
theorem setpointReqAlt (onoff : Bool) (v i : Half) (k : Byte) : Statement (.setpointReqAlt onoff v i k) := rfl
theorem setpointRsp (status : Byte) (v i : Half) (k : Byte) : Statement (.setpointRsp status v i k) := rfl
theorem objgetReq (id k : Byte) : Statement (.objgetReq id k) := rfl
theorem objgetRspData (id : Byte) (x : Half) (k : Byte) : Statement (.objgetRspData id x k) := rfl
theorem objgetRspNodata (id k : Byte) : Statement (.objgetRspNodata id k) := rfl
theorem cksum (bs : List Byte) : Statement (.cksum bs) := rfl
theorem encode (src : End) (cls : Half) (payload : List Byte) : Statement (.encode src cls payload) := rfl
theorem decode (buf : List Byte) : Statement (.decode buf) := rfl
theorem rxbyte (dst : End) (b : Byte) : Statement (.rxbyte dst b) := rfl
theorem rxidle (dst : End) : Statement (.rxidle dst) := rfl
theorem mkprofile (k : Quantity) (num den : Word) : Statement (.mkprofile k num den) := rfl
theorem d2p (k : Kind) (display : Word) : Statement (.d2p k display) := rfl
theorem p2d (k : Kind) (percent : Word) : Statement (.p2d k percent) := rfl
theorem raw2pct (i : ReadCal) (j : Channel) : Statement (.raw2pct i j) := rfl
theorem pct2pwm (i : SetCal) (percent : Word) : Statement (.pct2pwm i percent) := rfl
theorem adcevt (done : Bool) (code : BitVec 19) : Statement (.adcevt done code) := rfl
theorem oteval (r : Word) : Statement (.oteval r) := rfl
theorem pwmset (k : Quantity) (percent : Word) : Statement (.pwmset k percent) := rfl
theorem outen (req : Bool) : Statement (.outen req) := rfl
theorem setpoint (payload : List Byte) : Statement (.setpoint payload) := rfl
theorem objget (payload : List Byte) : Statement (.objget payload) := rfl
theorem setreq (onoff : Bool) (dispV dispI : Word) : Statement (.setreq onoff dispV dispI) := rfl
theorem objreq (id : Byte) : Statement (.objreq id) := rfl

end Sys2Proof.Laws.RowTag
end

