-- ==== Sys2Proof/Laws/Receiver.lean ====
section
/-!
SUPPORT. What the receiver does with a whole frame, said once (40_codec_ops.md R69, R72).
-/
namespace Sys2Proof.Machine

/-- Fewer bytes than the header announces are Incomplete. -/
theorem verdictOf_short (h : Byte) (r : List Byte) (h0 : h.toNat % 16 ≠ 0) (hl : r.length < h.toNat % 16) :
    verdictOf (h :: r) = .incomplete := by
  simp [verdictOf, headerLen_toNat, h0, hl]

/-- As many bytes as the header announces are Complete or Invalid by their last byte. -/
theorem verdictOf_full (h : Byte) (r : List Byte) (x : Byte) (h0 : h.toNat % 16 = r.length + 1) :
    verdictOf (h :: (r ++ [x])) = if x = cksum (h :: r) then .complete (headerClass h) r else .invalid := by
  simp [verdictOf, headerLen_toNat, h0]

theorem accumulated_of_empty (c : Codec) (h : c.rxlen = 0) : accumulated c = [] := by simp [accumulated, h]

@[simp] theorem setCodec_setCodec (d : End) (c c' : Codec) (s : State) :
    setCodec d c (setCodec d c' s) = setCodec d c s := by
  cases d <;> rfl

/-- Bytes that do not finish the frame are accumulated and nothing else happens. -/
theorem receiveBytes_unfinished (d : End) (h : Byte) (mid pre : List Byte) (s : State) (hn : h.toNat % 16 ≠ 0)
    (ha : accumulated (codecAt d s) = h :: pre) (hr : (codecAt d s).rxlen = pre.length + 1)
    (hl : pre.length + mid.length < h.toNat % 16) :
    ∃ c, receiveBytes d mid s = .next (setCodec d c s) ∧ accumulated c = h :: (pre ++ mid) ∧
      c.rxlen = pre.length + mid.length + 1 := by
  induction mid generalizing pre s with
  | nil => exact ⟨codecAt d s, by cases d <;> rfl, by simpa using ha, by simpa using hr⟩
  | cons b mid ih =>
    have hl' : pre.length + (mid.length + 1) < h.toNat % 16 := by simpa using hl
    have hp := accumulated_pushByte b (codecAt d s) (by omega)
    rw [ha] at hp
    have hv : verdictOf (accumulated (pushByte b (codecAt d s))) = .incomplete := by
      rw [hp]
      exact verdictOf_short _ _ hn (by simp; omega)
    have hs : receiveByte d b s = .next (setCodec d (pushByte b (codecAt d s)) s) := by simp [receiveByte, hv]
    obtain ⟨c, h1, h2, h3⟩ := ih (pre ++ [b]) (setCodec d (pushByte b (codecAt d s)) s) (by simpa using hp)
      (by simp [hr]) (by simp; omega)
    refine ⟨c, by simp [receiveBytes, hs, h1], by simpa using h2, ?_⟩
    simp only [List.length_append, List.length_cons, List.length_nil] at h3 ⊢
    omega

/-- A whole frame at an empty receiver: Complete and dispatched, or Invalid, by its checksum alone. -/
theorem receiveBytes_frame (d : End) (h : Byte) (r : List Byte) (x : Byte) (s : State)
    (h0 : h.toNat % 16 = r.length + 1) (hr : (codecAt d s).rxlen = 0) :
    ∃ c : Codec, c.rxlen = 0 ∧ receiveBytes d (h :: (r ++ [x])) s =
      if x = cksum (h :: r) then
        dispatch d (headerClass h) r (emit (.frameOut d (.complete (headerClass h) r)) (setCodec d c s))
      else .next (emit (.frameOut d .invalid) (setCodec d c s)) := by
  have hp := accumulated_pushByte h (codecAt d s) (by omega)
  rw [accumulated_of_empty _ hr] at hp
  have hv : verdictOf (accumulated (pushByte h (codecAt d s))) = .incomplete := by
    rw [hp]
    exact verdictOf_short _ _ (by omega) (by simp; omega)
  have hs : receiveByte d h s = .next (setCodec d (pushByte h (codecAt d s)) s) := by simp [receiveByte, hv]
  obtain ⟨c, h1, h2, h3⟩ := receiveBytes_unfinished d h r [] (setCodec d (pushByte h (codecAt d s)) s) (by omega)
    (by simpa using hp) (by simp [hr]) (by simp; omega)
  simp only [List.length_nil] at h3
  have hp2 := accumulated_pushByte x c (by omega)
  rw [h2] at hp2
  have hv2 : verdictOf (accumulated (pushByte x c)) =
      if x = cksum (h :: r) then .complete (headerClass h) r else .invalid := by
    rw [hp2]
    simpa using verdictOf_full h r x h0
  have last : ∀ o : Out, andThen o (receiveBytes d []) = o := by intro o; cases o <;> rfl
  refine ⟨discardBuffer (pushByte x c), rfl, ?_⟩
  rw [receiveBytes, hs, andThen_next, receiveBytes_append, h1, andThen_next, receiveBytes, last]
  simp only [receiveByte, codecAt_setCodec, setCodec_setCodec, hv2]
  by_cases hx : x = cksum (h :: r)
  · rw [if_pos hx, if_pos hx]
  · rw [if_neg hx, if_neg hx]

end Sys2Proof.Machine
end

