-- ==== Sys2Proof/Tests/Slice0.lean ====
section
/-!
SUPPORT. The model's own tests: ill-formed terms, the decoding of words written out from spec/, single events against the
vectors of 95_test_vectors.md (each test names its vector), and a witness for the hypotheses of every statement.
-/
namespace Sys2Proof.Tests

open Sys2Proof.Machine

/-! ### Helpers -/

/-- What a next state shows. -/
def after {α : Type} (o : Out) (f : State → α) : Option α :=
  match o with
  | .next s => some (f s)
  | .fault _ => none
  | .refused _ => none

/-- The refusal an event ends in. -/
def refusal (o : Out) : Option Refusal :=
  match o with
  | .refused r => some r
  | .next _ => none
  | .fault _ => none

/-- The slave after one scan, vector A13, its compare registers somewhere in their range. -/
def afterScan : State :=
  { State.reset with
    raw := ⟨⟨8192, true⟩, ⟨800, true⟩, ⟨2624, true⟩, ⟨0, true⟩, ⟨6400, true⟩⟩, pwmCmpV := 4095, pwmCmpI := 4095 }

/-- The device with the shorter Setpoint request, after one scan (D9). -/
def shortScan : State := { afterScan with par := { Params.setA with setpointReqReserved := false } }

/-- The master after `MKP V 5` and `MKP I 10`, vectors M1 and M3, the multipliers written out from the table. -/
def profiled : State :=
  { State.reset with profV := ⟨true, 3, 5000, 12800, 335544⟩, profI := ⟨true, 2, 1000, 2560, 1677722⟩, dpP := 5 }

/-- The same under the alternative overflow policy (D15). -/
def profiledWrap : State := { profiled with par := { Params.setA with ovfPolicy := .wrap32 } }

/-- One sample before the end of a temperature burst of constant code `c`, output on. -/
def lastSample (c : Nat) : State :=
  { afterScan with scanIdx := .temperature, accSum := BitVec.ofNat 32 (8191 * c), accCnt := 8191, outEn := true }

/-- Over temperature, vector T1's reading published, output off. -/
def latched : State := { afterScan with raw := publish .temperature 4000 afterScan.raw, otLatch := true }

/-- The state with a script. -/
def withScript (bs : List Byte) : State := { State.reset with script := bs }

/-- A device whose calibration entry `CAL[0]` is `c`. -/
def withVset (c : CalEntry) : State :=
  { afterScan with par := { Params.setA with cal := { Params.setA.cal with vset := c } } }

/-- A device whose calibration entry `CAL[2]` is `c`. -/
def withVread (c : CalEntry) : State :=
  { afterScan with par := { Params.setA with cal := { Params.setA.cal with vread := c } } }

/-- The same state under the alternative overflow policy (D15). -/
def wrapped (s : State) : State := { s with par := { s.par with ovfPolicy := .wrap32 } }

/-- Over temperature, output off, one sample before the end of the next temperature burst, of constant code 300. -/
def hotAgain : State :=
  { latched with scanIdx := .temperature, accSum := BitVec.ofNat 32 (8191 * 300), accCnt := 8191 }

/-- The registers of the slave a Setpoint request may move. -/
structure View where
  spV : Half
  spI : Half
  cmpV : Nat
  cmpI : Nat
  on : Bool
  deriving DecidableEq, Repr

/-- They in a state. -/
def setpointView (s : State) : View := ⟨s.spV, s.spI, s.pwmCmpV, s.pwmCmpI, s.outEn⟩

/-! ### Ill-formed terms are refused -/

theorem test_ill_frame_length : (Instr.frameHdr .slave 2 3 [0x01]).wellFormed = false := by decide
theorem test_ill_frame_named :
    (Instr.frameHdr .slave 1 7 [0x01, 0x10, 0x00, 0x08, 0x00, 0x00, 0x30]).wellFormed = false := by decide
theorem test_ill_frame_named_alt :
    (Instr.frameHdr .slave 1 6 [0x01, 0x10, 0x00, 0x08, 0x00, 0x2F]).wellFormed = false := by decide
theorem test_ill_frame_named_objget : (Instr.frameHdr .slave 8 2 [0x09, 0x8B]).wellFormed = false := by decide
theorem test_ill_frame_named_response :
    (Instr.frameHdr .master 8 4 [0x09, 0x10, 0x00, 0x9D]).wellFormed = false := by decide
theorem test_wf_frame_same_bytes_other_way :
    (Instr.frameHdr .slave 8 4 [0x09, 0x10, 0x00, 0x9D]).wellFormed = true := by decide
theorem test_ill_cksum : (Instr.cksum (List.replicate 65536 0)).wellFormed = false := by
  simp only [Instr.wellFormed, List.length_replicate]; decide
theorem test_ill_encode : (Instr.encode .slave 1 (List.replicate 256 0)).wellFormed = false := by
  simp only [Instr.wellFormed, List.length_replicate]; decide
theorem test_ill_decode : (Instr.decode (List.replicate 17 0)).wellFormed = false := by decide
theorem test_ill_mkprofile : (Instr.mkprofile .voltage 5 0).wellFormed = false := by decide
theorem test_ill_setpoint : (Instr.setpoint (List.replicate 15 0)).wellFormed = false := by decide
theorem test_ill_objget : (Instr.objget (List.replicate 15 0)).wellFormed = false := by decide

/-! ### Decoding: words written out from spec/ -/

/-- R61, vector F11: a class-2 frame has no named row. -/
theorem test_decode_frameHdr :
    decode [0x00, 0x27, 0x01, 0x10, 0x00, 0x08, 0x00, 0x00, 0x40]
      = .ok (.frameHdr .slave 2 7 [0x01, 0x10, 0x00, 0x08, 0x00, 0x00, 0x40], []) := by decide
/-- R51, vector E6. -/
theorem test_decode_setpointReq :
    decode [0x00, 0x17, 0x01, 0x10, 0x00, 0x08, 0x00, 0x00, 0x30] = .ok (.setpointReq true 0x1000 0x0800 0x30, []) := by
  decide
/-- R51, vector F13: an on/off byte of 2 is no named row. -/
theorem test_decode_setpointReq_onoff :
    decode [0x00, 0x17, 0x02, 0x10, 0x00, 0x08, 0x00, 0x00, 0x31]
      = .ok (.frameHdr .slave 1 7 [0x02, 0x10, 0x00, 0x08, 0x00, 0x00, 0x31], []) := by decide
/-- R51, vector S7's repair. -/
theorem test_decode_setpointReqAlt :
    decode [0x00, 0x16, 0x01, 0x10, 0x00, 0x08, 0x00, 0x2F] = .ok (.setpointReqAlt true 0x1000 0x0800 0x2F, []) := by
  decide
/-- R52, vector E7. -/
theorem test_decode_setpointRsp :
    decode [0x01, 0x17, 0x01, 0x0F, 0xF0, 0x01, 0x00, 0x00, 0x18] = .ok (.setpointRsp 0x01 0x0FF0 0x0100 0x18, []) := by
  decide
/-- R55, vector E3. -/
theorem test_decode_objgetReq : decode [0x00, 0x82, 0x09, 0x8B] = .ok (.objgetReq 0x09 0x8B, []) := by decide
/-- R56, vector E4. -/
theorem test_decode_objgetRspData :
    decode [0x01, 0x84, 0x09, 0x10, 0x00, 0x9D] = .ok (.objgetRspData 0x09 0x1000 0x9D, []) := by decide
/-- R56, vector E5. -/
theorem test_decode_objgetRspNodata : decode [0x01, 0x82, 0x07, 0x89] = .ok (.objgetRspNodata 0x07 0x89, []) := by decide
/-- Layouts of the script from here on (log 2); the bytes after an event are left for the next one. -/
theorem test_decode_cksum : decode [0x10, 0x00, 0x02, 0x82, 0x09, 0x14] = .ok (.cksum [0x82, 0x09], [0x14]) := by decide
theorem test_decode_encode : decode [0x11, 0x01, 0x00, 0x08, 0x01, 0x09] = .ok (.encode .master 8 [0x09], []) := by decide
theorem test_decode_decode : decode [0x12, 0x03, 0x82, 0x09, 0x8B] = .ok (.decode [0x82, 0x09, 0x8B], []) := by decide
theorem test_decode_rxbyte : decode [0x13, 0x00, 0x80] = .ok (.rxbyte .slave 0x80, []) := by decide
theorem test_decode_rxidle : decode [0x14, 0x01] = .ok (.rxidle .master, []) := by decide
theorem test_decode_mkprofile :
    decode [0x15, 0x01, 0, 0, 0, 0x05, 0, 0, 0, 0x02] = .ok (.mkprofile .current 5 2, []) := by decide
theorem test_decode_d2p : decode [0x16, 0x00, 0, 0, 0x07, 0x71] = .ok (.d2p (.of .voltage) 1905, []) := by decide
theorem test_decode_p2d : decode [0x17, 0x02, 0, 0, 0x64, 0x00] = .ok (.p2d .power 25600, []) := by decide
theorem test_decode_raw2pct : decode [0x18, 0x03, 0x01] = .ok (.raw2pct .iread .current, []) := by decide
theorem test_decode_pct2pwm : decode [0x19, 0x01, 0, 0, 0x08, 0x00] = .ok (.pct2pwm .iset 2048, []) := by decide
theorem test_decode_adcevt : decode [0x1A, 0x01, 0x07, 0xFF, 0xFE] = .ok (.adcevt true 0x7FFFE, []) := by decide
theorem test_decode_oteval : decode [0x1B, 0, 0, 0x12, 0xC0] = .ok (.oteval 4800, []) := by decide
theorem test_decode_pwmset : decode [0x1C, 0x00, 0, 0, 0x10, 0x00] = .ok (.pwmset .voltage 4096, []) := by decide
theorem test_decode_outen : decode [0x1D, 0x01] = .ok (.outen true, []) := by decide
theorem test_decode_setpoint :
    decode [0x1E, 0x06, 0x01, 0x10, 0x00, 0x08, 0x00, 0x00] = .ok (.setpoint [0x01, 0x10, 0x00, 0x08, 0x00, 0x00], []) := by
  decide
theorem test_decode_objget : decode [0x1F, 0x01, 0x09] = .ok (.objget [0x09], []) := by decide
theorem test_decode_setreq :
    decode [0x20, 0x01, 0, 0, 0x07, 0x71, 0, 0, 0x01, 0xF4] = .ok (.setreq true 1905 500, []) := by decide
theorem test_decode_objreq : decode [0x21, 0x0A] = .ok (.objreq 10, []) := by decide
/-- Bytes that are no event are refused by name. -/
theorem test_decode_rejects :
    decode [0x22] = .error (.unknownTag 0x22) ∧ decode [0x18, 0x06, 0x00] = .error (.badOperand "RAW2PCT") ∧
    decode [0x15, 0x00, 0, 0, 0, 5, 0, 0, 0, 0] = .error (.badOperand "MKPROFILE") ∧
    decode [0x00, 0x82, 0x09] = .error .truncated ∧ decode [0x1E, 0x0F] = .error (.badOperand "SETPOINT") := by decide
/-- A table word: SETPOINT.REQ with zero operand bytes, and ENCODE's class in 16 bits. -/
theorem test_decodeTableWord :
    decodeTableWord 8 0x17 = some (.setpointReq false 0 0 0) ∧ decodeTableWord 8 0x84 = some (.objgetRspData 0 0 0) ∧
    decodeTableWord 16 0x0003 = some (.encode .slave 3 []) := by decide

/-! ### Steps -/

theorem test_step_illegal :
    refusal (step (withScript [0x22])) = some (.undecodable (.unknownTag 0x22)) := by decide
theorem test_step_fetchWord :
    after (step (State.reset.withFetchWord 24 0x8B0982)) (·.emitted)
      = some [.frameOut .slave (.complete 8 [0x09]), .txBytes .slave [0x84, 0x09, 0x00, 0x00, 0x8D]] := by decide

/-! ### The codec (2.1) -/

/-- Vector E11's sum: 15 times 255 is 3825, 0xF1 modulo 256. -/
theorem test_cksum_wraps :
    after (exec (.cksum (List.replicate 15 0xFF)) State.reset) (·.emitted) = some [.result (.checksum 0xF1)] := by decide
/-- Vector E10, the longest frame. -/
theorem test_encode_longest :
    after (exec (.encode .slave 3 [0, 1, 2, 3, 4, 5, 6, 7, 8, 9, 10, 11, 12, 13]) State.reset) (·.emitted.head?)
      = some (some (.txBytes .slave [0x3F, 0, 1, 2, 3, 4, 5, 6, 7, 8, 9, 10, 11, 12, 13, 0x9A])) := by decide
/-- Vector E12. -/
theorem test_encode_refused :
    refusal (exec (.encode .slave 16 []) State.reset) = some .encodeOperands ∧
    refusal (exec (.encode .slave 1 (List.replicate 15 0)) State.reset) = some .encodeOperands := by decide
/-- Vector B8: one length bit flipped gives a Complete frame. -/
theorem test_decode_short_complete :
    after (exec (.decode [0x81, 0x81]) State.reset) (·.emitted) = some [.result (.verdict (.complete 8 []))] := by decide
/-- R69: more bytes than the header announces. -/
theorem test_decode_too_long :
    after (exec (.decode [0x01, 0x01, 0x00]) State.reset) (·.emitted) = some [.result (.verdict .invalid)] := by decide
/-- Vector X4. -/
theorem test_rxbyte_no_length :
    after (exec (.rxbyte .master 0x80) State.reset) (fun s => (s.emitted, s.rxM.rxlen))
      = some ([.frameOut .master .invalid], 0) := by decide
/-- Vector X1, its first byte: kept at the receiving end only. -/
theorem test_rxbyte_header :
    after (exec (.rxbyte .master 0x01) State.reset) (fun s => (s.emitted, s.rxM.rxlen, s.rxS.rxlen)) = some ([], 1, 0) := by
  decide
/-- Vector X8: idle in mid frame. -/
theorem test_rxidle :
    after (exec (.rxidle .slave) { State.reset with rxS := ⟨Vector.replicate 16 0x17, 3⟩ }) (fun s => (s.rxS.rxlen, s.emitted))
      = some (0, []) := by decide

/-! ### Frames on the wire (2.1, 2.5, P4) -/

/-- Vector F11: class 2 is Complete and ignored. -/
theorem test_frameHdr_other_class :
    after (exec (.frameHdr .slave 2 7 [0x01, 0x10, 0x00, 0x08, 0x00, 0x00, 0x40]) afterScan) (fun s => (s.emitted, s.spV))
      = some ([.frameOut .slave (.complete 2 [0x01, 0x10, 0x00, 0x08, 0x00, 0x00])], 0) := by decide
/-- Vector X9: the Object request is swallowed by an unfinished frame. -/
theorem test_objgetReq_swallowed :
    after (exec (.objgetReq 0x09 0x8B) { State.reset with rxS := ⟨(Vector.replicate 16 0).set 0 0x17, 2⟩ })
      (fun s => (s.emitted, s.rxS.rxlen)) = some ([], 5) := by decide
/-- Vector F1. -/
theorem test_setpointReq :
    after (exec (.setpointReq true 0x1000 0x0800 0x30) afterScan) (fun s => (setpointView s, s.emitted.getLast?))
      = some (⟨4096, 2048, 3445, 3765, true⟩,
          some (.txBytes .slave [0x17, 0x01, 0x0F, 0xF4, 0x04, 0xD2, 0x00, 0xF1])) := by decide
/-- A wrong checksum: Invalid, and no effect. -/
theorem test_setpointReq_checksum :
    after (exec (.setpointReq true 0x1000 0x0800 0x31) afterScan) (fun s => (setpointView s, s.emitted))
      = some (⟨0, 0, 4095, 4095, false⟩, [.frameOut .slave .invalid]) := by decide
/-- S7's repair on the device that expects it (D9). -/
theorem test_setpointReqAlt :
    after (exec (.setpointReqAlt true 0x1000 0x0800 0x2F) shortScan) setpointView
      = some ⟨4096, 2048, 3445, 3765, true⟩ := by decide
/-- The same frame on a device that expects the longer one is ignored (D38). -/
theorem test_setpointReqAlt_ignored :
    after (exec (.setpointReqAlt true 0x1000 0x0800 0x2F) afterScan) setpointView = some ⟨0, 0, 4095, 4095, false⟩ := by
  decide
/-- Program P4: the answer at the master. -/
theorem test_setpointRsp :
    after (exec (.setpointRsp 0x05 0x0FF4 0x04D2 0xF5) profiled) (·.emitted)
      = some [.frameOut .master (.complete 1 [0x05, 0x0F, 0xF4, 0x04, 0xD2, 0x00])] := by decide
/-- Vector F9. -/
theorem test_objgetReq :
    after (exec (.objgetReq 0x03 0x85) State.reset) (·.emitted.getLast?)
      = some (some (.txBytes .slave [0x84, 0x03, 0x64, 0x00, 0xEB])) := by decide
/-- Program P4. -/
theorem test_objgetRspData :
    after (exec (.objgetRspData 0x09 0x261A 0xCD) profiled) (·.emitted)
      = some [.frameOut .master (.complete 8 [0x09, 0x26, 0x1A])] := by decide
/-- Vector B6's wrong id byte, at the master. -/
theorem test_objgetRspNodata_invalid :
    after (exec (.objgetRspNodata 0x08 0x8B) profiled) (·.emitted) = some [.frameOut .master .invalid] := by decide

/-! ### The converter (2.2, 2.3) -/

/-- Vectors M1 and M3, and `DP[P]` = 5. -/
theorem test_mkprofile :
    after (andThen (exec (.mkprofile .voltage 5 1) State.reset) (exec (.mkprofile .current 10 1)))
      (fun s => (s.profV, s.profI, s.dpP)) = some (profiled.profV, profiled.profI, 5) := by decide
/-- Vectors M9 and M16. -/
theorem test_mkprofile_rational :
    after (exec (.mkprofile .voltage 1 2) State.reset) (·.profV) = some ⟨true, 3, 500, 1280, 3355443⟩ ∧
    refusal (exec (.mkprofile .voltage 10000 1) State.reset) = some .nominalRange ∧
    refusal (exec (.mkprofile .voltage 0 1) State.reset) = some .nominalRange ∧
    refusal (exec (.mkprofile .voltage 1 3) State.reset) = some .nominalRange := by decide
/-- Vectors U1 and U13. -/
theorem test_d2p :
    after (exec (.d2p (.of .voltage) 1905) profiled) (·.emitted) = some [.result (.percent 9754)] ∧
    refusal (exec (.d2p (.of .current) 1001) profiled) = some .displayRange := by decide
/-- Vector U14: the wrapped product. -/
theorem test_d2p_wrap32 :
    after (exec (.d2p (.of .current) 9999) profiledWrap) (·.emitted) = some [.result (.percent 59366)] := by decide
/-- Vectors U2 and U8: the half rounds up. -/
theorem test_p2d :
    after (exec (.p2d (.of .voltage) 9754) profiled) (·.emitted) = some [.result (.display 1905)] ∧
    after (exec (.p2d (.of .voltage) 2) profiled) (·.emitted) = some [.result (.display 0)] ∧
    after (exec (.p2d (.of .voltage) 3) profiled) (·.emitted) = some [.result (.display 1)] := by decide
/-- Vectors U15 and U16. -/
theorem test_p2d_refused :
    refusal (exec (.p2d (.of .voltage) 25601) profiled) = some .percentRange ∧
    refusal (exec (.p2d .power 0) profiled) = some .powerKind := by decide
/-- Vector Q5, and Q2's clamp on `RAW[3]` = 0. -/
theorem test_raw2pct :
    after (exec (.raw2pct .vread .voltage) afterScan) (·.emitted) = some [.result (.percent 4084)] ∧
    after (exec (.raw2pct .vread .loopback) afterScan) (·.emitted) = some [.result (.percent 0)] := by decide
/-- Vector Q6. -/
theorem test_raw2pct_offset :
    after (exec (.raw2pct .vread .loopback) (withVread ⟨102400, 20⟩)) (·.emitted) = some [.result (.percent 20)] := by
  decide
/-- Vectors Q7 and Q11. -/
theorem test_pct2pwm :
    after (exec (.pct2pwm .vset 12800) State.reset) (·.emitted) = some [.result (.compare 2085)] ∧
    after (exec (.pct2pwm .vset 3) State.reset) (·.emitted) = some [.result (.compare 4085)] ∧
    after (exec (.pct2pwm .vset 4) State.reset) (·.emitted) = some [.result (.compare 4084)] := by decide
/-- Vector Q13. -/
theorem test_pct2pwm_refused : refusal (exec (.pct2pwm .vset 0) (withVset ⟨10240, -5⟩)) = some .pwmCodeRange := by decide

/-! ### The scheduler and the interlock (2.4) -/

/-- Vector T3: one code below the threshold trips. -/
theorem test_adcevt_trip :
    after (exec (.adcevt true 299) (lastSample 299))
      (fun s => (s.raw.temperature, s.otLatch, s.outEn, s.emitted))
      = some (⟨4784, true⟩, true, false, [.adcSel .reference, .outEn false]) := by decide
/-- Vectors A5 and A7: 8191 samples publish nothing; one short of the half does not round up. -/
theorem test_adcevt_count :
    after (exec (.adcevt true 100) { State.reset with accSum := 819000, accCnt := 8190 })
      (fun s => (s.raw.reference.published, s.accSum, s.accCnt)) = some (false, 819100, 8191) ∧
    after (exec (.adcevt true 101) { State.reset with accSum := 819354, accCnt := 8191 }) (·.raw.reference)
      = some ⟨1600, true⟩ ∧
    after (exec (.adcevt true 101) { State.reset with accSum := 819355, accCnt := 8191 }) (·.raw.reference)
      = some ⟨1601, true⟩ := by decide
/-- Vector T2: at the threshold the latch clears and the output stays off. -/
theorem test_oteval_clears :
    after (exec (.oteval 4800) { latched with raw := publish .temperature 4800 latched.raw })
      (fun s => (s.otLatch, s.outEn, s.emitted)) = some (false, false, []) := by decide
/-- Vector T1; and R112(c): a number that was not published moves nothing. -/
theorem test_oteval_trips :
    after (exec (.oteval 4000) { latched with otLatch := false, outEn := true }) (fun s => (s.otLatch, s.outEn))
      = some (true, false) ∧
    after (exec (.oteval 4800) latched) (fun s => (s.otLatch, s.outEn, s.emitted)) = some (true, false, []) := by decide

/-! ### The driver and the client frames (2.5) -/

/-- Vector Q10, the current channel. -/
theorem test_pwmset :
    after (exec (.pwmset .current 0x0800) afterScan) (fun s => (s.pwmCmpV, s.pwmCmpI, s.emitted))
      = some (4095, 3765, [.pwmCmpI 3765]) := by decide
/-- Vectors T6 and T7. -/
theorem test_outen :
    after (exec (.outen true) latched) (·.outEn) = some false ∧
    after (exec (.outen true) State.reset) (·.outEn) = some true := by decide
/-- Vector F2, from the state after F1: only the changed field moves; constant current. -/
theorem test_setpoint_changed_field :
    after (exec (.setpoint [0x01, 0x20, 0x00, 0x08, 0x00, 0x00])
        { afterScan with spV := 4096, spI := 2048, pwmCmpV := 3445, pwmCmpI := 3765, outEn := true })
      (fun s => (setpointView s, s.emitted))
      = some (⟨8192, 2048, 2805, 3765, true⟩,
          [.pwmCmpV 2805, .outEn true, .txBytes .slave [0x17, 0x05, 0x0F, 0xF4, 0x04, 0xD2, 0x00, 0xF5]]) := by decide
/-- Vectors F6 and F13: over the power limit nothing changes and the answer is sent; an on/off byte of 2 is refused. -/
theorem test_setpoint_rejected :
    after (exec (.setpoint [0x00, 0x64, 0x00, 0x64, 0x00, 0x00])
        { afterScan with par := { Params.setA with maxPower := 100 }, spV := 8192, spI := 2048, outEn := true })
      (fun s => (setpointView s, s.emitted.getLast?))
      = some (⟨8192, 2048, 4095, 4095, true⟩,
          some (.txBytes .slave [0x17, 0x05, 0x0F, 0xF4, 0x04, 0xD2, 0x00, 0xF5])) ∧
    refusal (exec (.setpoint [0x02, 0x10, 0x00, 0x08, 0x00, 0x00]) afterScan) = some .onoffUndefined := by decide
/-- Vector F10: an id the source does not recognize. -/
theorem test_objget_unknown :
    after (exec (.objget [0xFF]) State.reset) (·.emitted) = some [.txBytes .slave [0x82, 0xFF, 0x81]] := by decide
/-- Vector F12: a longer payload is ignored. -/
theorem test_objget_ignored : after (exec (.objget [0x09, 0x00]) State.reset) (·.emitted) = some [] := by decide
/-- Program P4. -/
theorem test_setreq :
    after (exec (.setreq true 1905 500) profiled) (·.emitted)
      = some [.txBytes .master [0x17, 0x01, 0x26, 0x1A, 0x32, 0x00, 0x00, 0x8A]] := by decide
/-- Program P4. -/
theorem test_objreq : after (exec (.objreq 10) State.reset) (·.emitted) = some [.txBytes .master [0x82, 0x0A, 0x8C]] := by
  decide

/-! ### Witnesses: each statement's hypotheses are met, each clause at a boundary where it has one -/

/-- A device that has not booted. -/
def notBooted : State := { State.reset with par := { Params.setA with bootDone := false } }

/-- A slave receiver one byte before the end of vector X6's frame. -/
def fifteenBytes : State :=
  { State.reset with rxS := ⟨#v[0x3F, 0, 1, 2, 3, 4, 5, 6, 7, 8, 9, 10, 11, 12, 13, 0], 15⟩ }

/-- A device with a power limit of 100, vector F6. -/
def lowPower : State := { afterScan with par := { Params.setA with maxPower := 100 } }

/-- The event answers a next state. -/
def Completes (i : Instr) (s : State) : Prop := ∃ t, exec i s = .next t

theorem witness_DecodeOfEncodeIsTheInstruction :
    (Instr.frameHdr .slave 2 7 [0x01, 0x10, 0x00, 0x08, 0x00, 0x00, 0x40]).wellFormed = true ∧
    (Instr.decode (List.replicate 16 0)).wellFormed = true ∧ (Instr.setpoint (List.replicate 14 0)).wellFormed = true := by
  decide

theorem witness_StepRunsTheDecodedEvent :
    let s := withScript [0x21, 0x0A, 0x14]
    s.par.bootDone = true ∧ decode s.script = .ok (.objreq 10, [0x14]) ∧ (Instr.objreq 10).wellFormed = true := by decide

theorem witness_StepStopsOnlyByName :
    notBooted.par.bootDone = false ∧ (State.reset.par.bootDone = true ∧ State.reset.script = []) ∧
    ((withScript [0x22]).par.bootDone = true ∧ (withScript [0x22]).script ≠ [] ∧
      decode (withScript [0x22]).script = .error (.unknownTag 0x22)) ∧
    (∃ f, step notBooted = .fault f) :=
  ⟨by decide, by decide, by decide, _, rfl⟩

theorem witness_EncodeBuildsTheFrameOrIsRefused :
    ((15 : Half).toNat ≤ 15 ∧ (List.replicate 14 (0 : Byte)).length ≤ 14) ∧
    15 < (16 : Half).toNat ∧ 14 < (List.replicate 15 (0 : Byte)).length := by decide

theorem witness_DecodeInvertsEncode :
    (15 : Half).toNat ≤ 15 ∧ (List.replicate 14 (0xFF : Byte)).length ≤ 14 ∧ 0 < (frameOf 0 []).length := by decide

theorem witness_OneBitErrorsOutsideTheLengthAreInvalid :
    (8 ≤ 15 ∧ [(0x09 : Byte)].length ≤ 14 ∧ (frameOf 8 [0x09])[0]? = some 0x82 ∧ 4 < 8 ∧ (0 = 0 → 4 ≤ 4)) ∧
    (15 ≤ 15 ∧ (List.replicate 14 (0xFF : Byte)).length ≤ 14 ∧
      (frameOf 15 (List.replicate 14 0xFF))[15]? = some 0xF1 ∧ 7 < 8 ∧ (15 = 0 → 4 ≤ 7)) := by decide

theorem witness_ReceivedByteFollowsTheVerdict :
    (codecAt .slave fifteenBytes).rxlen ≤ 15 ∧ (codecAt .master State.reset).rxlen ≤ 15 ∧
    verdictOf ((codecAt .slave fifteenBytes).rxbuf.toList.take 15 ++ [0x9A])
      = .complete 3 [0, 1, 2, 3, 4, 5, 6, 7, 8, 9, 10, 11, 12, 13] ∧
    verdictOf ((codecAt .slave fifteenBytes).rxbuf.toList.take 15 ++ [0x9B]) = .invalid ∧
    verdictOf ((codecAt .master State.reset).rxbuf.toList.take 0 ++ [0x3F]) = .incomplete := by decide

theorem witness_FirstByteIsAHeader :
    (codecAt .slave State.reset).rxlen = 0 ∧ (0x80 : Byte).toNat % 16 = 0 ∧ (0x8F : Byte).toNat % 16 ≠ 0 := by decide

theorem witness_ReceiverInvariantIsKept :
    (ReceiverOk fifteenBytes.rxM ∧ ReceiverOk fifteenBytes.rxS) ∧
    ∃ t, step { fifteenBytes with script := [0x13, 0x00, 0x9A] } = .next t :=
  ⟨by decide, _, rfl⟩

theorem witness_BadFrameIsInvalid :
    let i := Instr.setpointReq true 0x1000 0x0800 0x31
    let bytes : List Byte := [0x17, 0x01, 0x10, 0x00, 0x08, 0x00, 0x00, 0x31]
    (i.wellFormed = true ∧ wireBytes i = some (.slave, bytes) ∧ (codecAt .slave State.reset).rxlen = 0 ∧
      bytes.getLast? ≠ some (byteSum bytes.dropLast)) ∧
    ((Instr.frameHdr .master 8 0 []).wellFormed = true ∧ wireBytes (.frameHdr .master 8 0 []) = some (.master, [0x80]) ∧
      (codecAt .master State.reset).rxlen = 0 ∧ [(0x80 : Byte)].length = 1) := by decide

theorem witness_GoodFrameIsComplete :
    (∀ i ∈ [Instr.frameHdr .slave 2 7 [0x01, 0x10, 0x00, 0x08, 0x00, 0x00, 0x40], .frameHdr .master 15 1 [0xF1],
            .setpointRsp 0x05 0x0FF4 0x04D2 0xF5, .objgetRspData 0x09 0x1000 0x9D, .objgetRspNodata 0x07 0x89],
      i.wellFormed = true ∧
      (wireBytes i).any (fun p => p.2.length ≥ 2 && p.2.getLast? == some (byteSum p.2.dropLast) &&
        (p.1 == .master || p.2.head? == some 0x27)) = true) ∧
    (codecAt .slave State.reset).rxlen = 0 ∧ (codecAt .master State.reset).rxlen = 0 ∧
    (0x27 : Byte).toNat / 16 ≠ 1 ∧ (0x27 : Byte).toNat / 16 ≠ 8 := by decide

theorem witness_SlaveFrameIsDispatched :
    let setp := Instr.setpointReq true 0x1000 0x0800 0x30
    let sb : List Byte := [0x01, 0x10, 0x00, 0x08, 0x00, 0x00, 0x30]
    let obj := Instr.objgetReq 0x09 0x8B
    (setp.wellFormed = true ∧ wireBytes setp = some (.slave, 0x17 :: sb) ∧ State.reset.rxS.rxlen = 0 ∧ sb ≠ [] ∧
      sb.getLast? = some (byteSum (0x17 :: sb.dropLast)) ∧ (0x17 : Byte).toNat / 16 = 1) ∧
    (obj.wellFormed = true ∧ wireBytes obj = some (.slave, 0x82 :: [0x09, 0x8B]) ∧
      [(0x09 : Byte), 0x8B].getLast? = some (byteSum (0x82 :: [(0x09 : Byte), 0x8B].dropLast)) ∧
      (0x82 : Byte).toNat / 16 = 8) := by decide

/-- Also in mid frame, and with the classes the slave dispatches. -/
theorem witness_IdleRestoresFraming :
    (List.replicate 14 (0 : Byte)).length ≤ 14 ∧ [(0x09 : Byte)].length ≤ 14 ∧
    after (andThen (exec (.rxidle .slave) fifteenBytes) (exec (.frameHdr .slave 8 2 (frameOf 8 [0x09]).tail)))
      (·.emitted.getLast?) = some (some (.txBytes .slave [0x84, 0x09, 0x00, 0x00, 0x8D])) := by decide

/-- Vector Q5: the readbacks after the scan. -/
theorem afterScan_readbacks : ReadbacksAre afterScan 4084 1234 := ⟨by decide, by decide⟩

/-- The same on the other two devices. -/
theorem other_readbacks : ReadbacksAre shortScan 4084 1234 ∧ ReadbacksAre lowPower 4084 1234 ∧
    ReadbacksAre { lowPower with spV := 0x1000 } 4084 1234 :=
  ⟨⟨by decide, by decide⟩, ⟨by decide, by decide⟩, by decide, by decide⟩

theorem witness_SetpointFramesRunSetpoint :
    (afterScan.rxS.rxlen = 0 ∧ afterScan.par.setpointReqReserved = true ∧ RequestDefined afterScan 0x1000 0x0800 ∧
      RequestDefined afterScan 0xFFFF 0xFFFF ∧ ∃ rv ri, ReadbacksAre afterScan rv ri) ∧
    (shortScan.rxS.rxlen = 0 ∧ shortScan.par.setpointReqReserved = false ∧ RequestDefined shortScan 0x1000 0x0800 ∧
      ∃ rv ri, ReadbacksAre shortScan rv ri) :=
  ⟨⟨by decide, by decide, .inr ⟨fun _ => ⟨3445, by decide⟩, fun _ => ⟨3765, by decide⟩⟩, .inl (by decide), 4084, 1234,
      afterScan_readbacks⟩,
    by decide, by decide, .inr ⟨fun _ => ⟨3445, by decide⟩, fun _ => ⟨3765, by decide⟩⟩, 4084, 1234, other_readbacks.1⟩

theorem witness_ObjectRequestFrameIsAnswered : afterScan.rxS.rxlen = 0 := by decide

theorem witness_ProfileIsDerivedFromTheRating :
    ((1 : Word) ≠ 0 ∧ 0 < (5 : Word).toInt ∧ 3 ≤ 3 ∧ (5 : Word).toNat * 10 ^ 3 = 5000 * (1 : Word).toNat ∧ 5000 ≤ 9999 ∧
      (3 = 3 ∨ 9999 * (1 : Word).toNat < (5 : Word).toNat * 10 ^ 4)) ∧
    (0 < (9999 : Word).toInt ∧ 0 ≤ 3 ∧ (9999 : Word).toNat * 10 ^ 0 = 9999 * (1 : Word).toNat ∧ 9999 ≤ 9999 ∧
      9999 * (1 : Word).toNat < (9999 : Word).toNat * 10 ^ 1) ∧
    ((1000 : Word) ≠ 0 ∧ (1 : Word).toNat * 10 ^ 3 = 1 * (1000 : Word).toNat) := by decide

theorem witness_ProfileOfAnUnfitRatingIsRefused :
    ((1 : Word) ≠ 0 ∧ (0 : Word).toInt ≤ 0) ∧ (9999 * (1 : Word).toNat : Int) < (10000 : Word).toInt ∧
    ((3 : Word) ≠ 0 ∧ 3 ≤ 3 ∧ (1 : Word).toNat * 10 ^ 3 ≤ 9999 * (3 : Word).toNat ∧
      ¬ (3 : Word).toNat ∣ (1 : Word).toNat * 10 ^ 3) := by decide

theorem witness_LegalProfilesNeverOverflow :
    ProfileOk (profileOf 3 1) ∧ ProfileOk (profileOf 0 9999) ∧ ProfileOk ⟨true, 3, 5000, 12800, 335544⟩ := by decide

theorem witness_DisplayIsScaledToPercent :
    ((5000 : Word).toNat ≤ (profileAt .voltage profiled).maxdisp.toNat ∧ ProfileOk (profileAt .voltage profiled)) ∧
    ((profileAt .voltage profiled).maxdisp.toNat < (5001 : Word).toNat ∧ profiled.par.ovfPolicy = .refuse) ∧
    ((profileAt .voltage profiledWrap).maxdisp.toNat < (5001 : Word).toNat ∧ profiledWrap.par.ovfPolicy = .wrap32) := by
  decide

theorem witness_PercentIsScaledToDisplay :
    ((25600 : Word).toNat ≤ 25600 ∧ ProfileOk (profileAt .current profiled)) ∧
    (25600 < (25601 : Word).toNat ∧ profiled.par.ovfPolicy = .refuse) ∧ profiledWrap.par.ovfPolicy = .wrap32 := by decide

theorem witness_DisplayRoundTripIsExact :
    (ProfileOk (profileAt .voltage profiled) ∧ (5000 : Word).toNat ≤ (profileAt .voltage profiled).maxdisp.toNat) ∧
    (0 : Word).toNat ≤ (profileAt .voltage profiled).maxdisp.toNat := by decide

theorem witness_ReadingIsConvertedToPercent :
    1 ≤ afterScan.par.adcShift ∧ (readingAt .voltage afterScan.raw).value = 2624 ∧
    (102400 * 2624 + 2 ^ (16 - 1) < 2 ^ 32 ∧ ((102400 * 2624 + 2 ^ (16 - 1)) / 2 ^ 16 : Int) + -16 ≤ 65535) ∧
    (let d := withVread ⟨102400, 61436⟩
     65535 < (((readCal .vread d.par.cal).gain * (readingAt .voltage d.raw).value + 2 ^ (d.par.adcShift - 1))
       / 2 ^ d.par.adcShift : Int) + (readCal .vread d.par.cal).offset) ∧
    (let d := withVread ⟨1636801, 0⟩
     d.par.ovfPolicy = .refuse ∧
     2 ^ 32 ≤ (readCal .vread d.par.cal).gain * (readingAt .voltage d.raw).value + 2 ^ (d.par.adcShift - 1)) ∧
    (let d := wrapped (withVread ⟨1636801, 0⟩)
     d.par.ovfPolicy = .wrap32 ∧ after (exec (.raw2pct .vread .voltage) d) (·.emitted) = some [.result (.percent 0)]) := by
  decide

theorem witness_PercentIsConvertedToCompare :
    1 ≤ State.reset.par.pwmShift ∧
    (10240 * (25600 : Word).toNat + 2 ^ (16 - 1) < 2 ^ 32 ∧
      0 ≤ ((10240 * (25600 : Word).toNat + 2 ^ (16 - 1)) / 2 ^ 16 : Int) + 10 ∧
      ((10240 * (25600 : Word).toNat + 2 ^ (16 - 1)) / 2 ^ 16 : Int) + 10 ≤ 4095) ∧
    (let d := withVset ⟨10240, -1⟩
     ((setCal .vset d.par.cal).gain * (0 : Word).toNat + 2 ^ (d.par.pwmShift - 1)) / 2 ^ d.par.pwmShift
       + (setCal .vset d.par.cal).offset < 0) ∧
    (State.reset.par.ovfPolicy = .refuse ∧ 2 ^ 32 ≤ 10240 * (419428 : Word).toNat + 2 ^ (16 - 1)) ∧
    ((wrapped afterScan).par.ovfPolicy = .wrap32 ∧
      after (exec (.pct2pwm .vset 419428) (wrapped afterScan)) (·.emitted) = some [.result (.compare 4085)]) := by decide

theorem witness_ConversionIsAccumulated :
    let s := { State.reset with accSum := 8190 * 1023, accCnt := 8190 }
    s.par.adcBits ≤ 19 ∧ AccumulatorOk s ∧ (1023 : BitVec 19).toNat < 2 ^ s.par.adcBits ∧ s.accCnt.toNat < 8191 := by decide

theorem witness_LastConversionCompletesTheBurst :
    ((lastSample 299).par.adcBits ≤ 19 ∧ AccumulatorOk (lastSample 299) ∧
      (299 : BitVec 19).toNat < 2 ^ (lastSample 299).par.adcBits ∧ (lastSample 299).accCnt.toNat = 8191) ∧
    ((lastSample 299).scanIdx = .temperature ∧ ((lastSample 299).accSum.toNat + 299 + 256) / 512 < 4800) ∧
    ¬ ((lastSample 300).accSum.toNat + 300 + 256) / 512 < (lastSample 300).par.otThresh := by decide

theorem witness_WideCodeIsNoOperand : 2 ^ State.reset.par.adcBits ≤ (1024 : BitVec 19).toNat := by decide

/-- A run of completed conversions counts all its events. -/
theorem completed_length (n : Nat) (c : BitVec 19) (es : List (Bool × BitVec 19)) (h : es.filter (·.1) = []) :
    ((List.replicate n (true, c) ++ es).filter (·.1)).length = n := by
  simp [List.filter_append, h]

theorem witness_BurstPublishesTheRoundedSum :
    let es : List (Bool × BitVec 19) := List.replicate 8192 (true, 1023) ++ [(false, 999)]
    State.reset.par.adcBits ≤ 19 ∧ State.reset.accSum = 0 ∧ State.reset.accCnt = 0 ∧
    (∀ e ∈ es, e.1 = true → e.2.toNat < 2 ^ State.reset.par.adcBits) ∧ (es.filter (·.1)).length = 8192 := by
  refine ⟨by decide, rfl, rfl, ?_, ?_⟩
  · intro e he h1
    rcases List.mem_append.1 he with h | h
    · rw [List.eq_of_mem_replicate h]; decide
    · rw [List.mem_singleton.1 h]; decide
  · exact completed_length 8192 1023 [(false, 999)] rfl

theorem witness_ShortBurstPublishesNothing :
    let es : List (Bool × BitVec 19) := List.replicate 8191 (true, 1023)
    State.reset.par.adcBits ≤ 19 ∧ State.reset.accSum = 0 ∧ State.reset.accCnt = 0 ∧
    (∀ e ∈ es, e.1 = true → e.2.toNat < 2 ^ State.reset.par.adcBits) ∧ (es.filter (·.1)).length < 8192 := by
  refine ⟨by decide, rfl, rfl, ?_, ?_⟩
  · intro e he _
    rw [List.eq_of_mem_replicate he]; decide
  · have := completed_length 8191 1023 [] rfl
    rw [List.append_nil] at this
    omega

theorem witness_InterlockComparesWithTheThreshold :
    (latched.raw.temperature = ⟨(4000 : Word).toNat, true⟩ ∧ (4000 : Word).toNat < latched.par.otThresh) ∧
    (afterScan.raw.temperature = ⟨(6400 : Word).toNat, true⟩ ∧ afterScan.par.otThresh ≤ (6400 : Word).toNat) ∧
    latched.raw.temperature ≠ ⟨(4800 : Word).toNat, true⟩ := by decide

theorem witness_DirectEvaluationMovesNoFlag :
    (LatchFollows latched ∧ Interlocked latched) ∧ LatchFollows afterScan ∧ Interlocked { afterScan with outEn := true } := by
  decide

theorem witness_LatchFollowsTheTemperature :
    let s := { hotAgain with script := [0x1A, 0x01, 0x00, 0x01, 0x2C] }
    LatchFollows s ∧ after (step s) (·.otLatch) = some false := by decide

theorem witness_LatchHoldsTheOutputOff :
    (LatchFollows latched ∧ latched.otLatch = true ∧ latched.outEn = false ∧
      after (exec (.outen true) latched) (·.outEn) = some false) ∧
    (LatchFollows hotAgain ∧ hotAgain.otLatch = true ∧ hotAgain.outEn = false ∧
      after (exec (.adcevt true 300) hotAgain) (fun s => (s.otLatch, s.outEn)) = some (false, false)) := by decide

theorem witness_OutputReturnsOnlyAfterARecoveredReading :
    LatchFollows hotAgain ∧ hotAgain.otLatch = true ∧ hotAgain.outEn = false ∧
    after (runAll [.outen true, .adcevt true 300, .outen true] hotAgain) (·.outEn) = some true := by decide

theorem witness_InterlockIsKept :
    let s := { lastSample 299 with script := [0x1A, 0x01, 0x00, 0x01, 0x2B] }
    Interlocked s ∧ s.outEn = true ∧ after (step s) (·.outEn) = some false := by decide

theorem witness_OutputIsNeverOnUnderTheLatch :
    State.reset.otLatch = false ∧ State.reset.outEn = false ∧
    ∃ t, runAll [.oteval 4799, .outen true] afterScan = .next t ∧ t.outEn = true :=
  ⟨rfl, rfl, _, rfl, rfl⟩

theorem witness_CompareRegisterIsLoaded :
    1 ≤ State.reset.par.pwmShift ∧ Completes (.pwmset .voltage 25600) State.reset ∧
    (10240 * (26148 : Word).toNat + 2 ^ (16 - 1) < 2 ^ 32 ∧
      (4095 : Int) < ((10240 * (26148 : Word).toNat + 2 ^ (16 - 1)) / 2 ^ 16 : Int) + 10) ∧
    (State.reset.par.ovfPolicy = .refuse ∧ 2 ^ 32 ≤ 10240 * (419428 : Word).toNat + 2 ^ (16 - 1)) ∧
    ((wrapped afterScan).par.ovfPolicy = .wrap32 ∧
      after (exec (.pwmset .voltage 419428) (wrapped afterScan)) (·.pwmCmpV) = some 4085) :=
  ⟨by decide, ⟨_, rfl⟩, by decide, by decide, by decide⟩

/-- Vector F1, and vector F7's request exactly at the power limit with an unchanged voltage. -/
theorem witness_AcceptedSetpointIsAppliedAndAnswered :
    (IsRequestPayload afterScan.par.setpointReqReserved (boolByte true) 0x1000 0x0800 [0x01, 0x10, 0x00, 0x08, 0x00, 0x00] ∧
      (0x1000 : Half).toNat * (0x0800 : Half).toNat / 65536 ≤ afterScan.par.maxPower ∧
      percentToPwm afterScan.par .vset (0x1000 : Half).toNat = .ok 3445 ∧
      percentToPwm afterScan.par .iset (0x0800 : Half).toNat = .ok 3765 ∧ ReadbacksAre afterScan 4084 1234) ∧
    (let s := { lowPower with spV := 0x1000 }
     IsRequestPayload s.par.setpointReqReserved (boolByte false) 0x1000 0x0640 [0x00, 0x10, 0x00, 0x06, 0x40, 0xFF] ∧
      (0x1000 : Half).toNat * (0x0640 : Half).toNat / 65536 = s.par.maxPower ∧ (0x1000 : Half) = s.spV ∧
      percentToPwm s.par .iset (0x0640 : Half).toNat = .ok 3835 ∧ ReadbacksAre s 4084 1234) :=
  ⟨⟨.inl ⟨rfl, 0x00, by decide⟩, by decide, by decide, by decide, afterScan_readbacks⟩,
    .inl ⟨rfl, 0xFF, by decide⟩, by decide, by decide, by decide, other_readbacks.2.2⟩

/-- Vector F8: one above the limit. -/
theorem witness_ExcessPowerIsRejectedWholesale :
    IsRequestPayload lowPower.par.setpointReqReserved (boolByte false) 0x1000 0x0650 [0x00, 0x10, 0x00, 0x06, 0x50, 0x00] ∧
    lowPower.par.maxPower < (0x1000 : Half).toNat * (0x0650 : Half).toNat / 65536 ∧ ReadbacksAre lowPower 4084 1234 :=
  ⟨.inl ⟨rfl, 0x00, by decide⟩, by decide, other_readbacks.2.1⟩

theorem witness_SetpointWithoutAMeaning :
    ([0x01, 0x10, 0x00, 0x08, (0x00 : Byte)].length ≠ (if State.reset.par.setpointReqReserved then 6 else 5)) ∧
    (IsRequestPayload State.reset.par.setpointReqReserved 0x02 0x1000 0x0800 [0x02, 0x10, 0x00, 0x08, 0x00, 0x00] ∧
      1 < (0x02 : Byte).toNat) ∧
    (IsRequestPayload afterScan.par.setpointReqReserved 0x01 0x7000 0x0000 [0x01, 0x70, 0x00, 0x00, 0x00, 0x00] ∧
      (0x01 : Byte).toNat ≤ 1 ∧ (0x7000 : Half).toNat * (0x0000 : Half).toNat / 65536 ≤ afterScan.par.maxPower ∧
      (0x7000 : Half) ≠ afterScan.spV ∧ percentToPwm afterScan.par .vset (0x7000 : Half).toNat = .error .pwmCodeRange) ∧
    (IsRequestPayload afterScan.par.setpointReqReserved 0x01 0x0000 0x7000 [0x01, 0x00, 0x00, 0x70, 0x00, 0x00] ∧
      (0x0000 : Half) = afterScan.spV ∧ (0x7000 : Half) ≠ afterScan.spI ∧
      percentToPwm afterScan.par .iset (0x7000 : Half).toNat = .error .pwmCodeRange) ∧
    (let d := withVread ⟨102400, 61436⟩
     RequestDefined d 0x0000 0x0000 ∧ raw2pctValue .vread .voltage d = .error .percentOverflow) ∧
    (let d := { afterScan with raw := publish .current 70000 afterScan.raw }
     RequestDefined d 0x0000 0x0000 ∧ raw2pctValue .vread .voltage d = .ok 4084 ∧
     raw2pctValue .iread .current d = .error .productOverflow) :=
  ⟨by decide, ⟨.inl ⟨rfl, 0x00, by decide⟩, by decide⟩,
    ⟨.inl ⟨rfl, 0x00, by decide⟩, by decide, by decide, by decide, by decide⟩,
    ⟨.inl ⟨rfl, 0x00, by decide⟩, by decide, by decide, by decide⟩,
    ⟨.inr ⟨fun h => absurd rfl h, fun h => absurd rfl h⟩, by decide⟩,
    .inr ⟨fun h => absurd rfl h, fun h => absurd rfl h⟩, by decide, by decide⟩

theorem witness_ObjectGetAnswersEveryId :
    ([] : List Byte).length ≠ 1 ∧ [(0x09 : Byte), 0x00].length ≠ 1 ∧ ∃ id : Byte, [(0x04 : Byte)] = [id] :=
  ⟨by decide, by decide, _, rfl⟩

theorem witness_SetpointRequestIsBuilt :
    ((5000 : Word).toNat ≤ profiled.profV.maxdisp.toNat ∧ (1000 : Word).toNat ≤ profiled.profI.maxdisp.toNat) ∧
    profiledWrap.par.ovfPolicy = .wrap32 := by decide

theorem witness_SetpointRequestOutOfRangeIsRefused :
    profiled.par.ovfPolicy = .refuse ∧ profiled.profV.maxdisp.toNat < (5001 : Word).toNat ∧
    profiled.profI.maxdisp.toNat < (1001 : Word).toNat := by decide

theorem witness_ValueEventsChangeNoRegister :
    Completes (.cksum [0x82]) State.reset ∧ Completes (.encode .slave 8 [0x09]) State.reset ∧
    Completes (.decode [0x82]) State.reset ∧ Completes (.d2p (.of .voltage) 1905) profiled ∧
    Completes (.p2d (.of .voltage) 9754) profiled ∧ Completes (.raw2pct .vread .voltage) afterScan ∧
    Completes (.pct2pwm .vset 0) State.reset ∧ Completes (.objget [0x09]) State.reset ∧
    Completes (.setreq true 1905 500) profiled ∧ Completes (.objreq 9) State.reset :=
  ⟨⟨_, rfl⟩, ⟨_, rfl⟩, ⟨_, rfl⟩, ⟨_, rfl⟩, ⟨_, rfl⟩, ⟨_, rfl⟩, ⟨_, rfl⟩, ⟨_, rfl⟩, ⟨_, rfl⟩, _, rfl⟩

theorem witness_SlaveAndProfileEventFrames :
    Completes (.adcevt true 250) (lastSample 250) ∧ Completes (.oteval 0) State.reset ∧
    Completes (.pwmset .voltage 0) State.reset ∧ Completes (.pwmset .current 0) State.reset ∧
    Completes (.outen true) State.reset ∧ Completes (.mkprofile .voltage 5 1) State.reset ∧
    Completes (.mkprofile .current 10 1) State.reset :=
  ⟨⟨_, rfl⟩, ⟨_, rfl⟩, ⟨_, rfl⟩, ⟨_, rfl⟩, ⟨_, rfl⟩, ⟨_, rfl⟩, _, rfl⟩

theorem witness_ReceiveAndSetpointFrames :
    Completes (.setpoint [0x01, 0x10, 0x00, 0x08, 0x00, 0x00]) afterScan ∧
    (wireBytes (.objgetReq 9 0x8B) = some (.slave, [0x82, 0x09, 0x8B]) ∧ Completes (.objgetReq 9 0x8B) afterScan) ∧
    (wireBytes (.objgetRspNodata 7 0x89) = some (.master, [0x82, 0x07, 0x89]) ∧
      Completes (.objgetRspNodata 7 0x89) afterScan) ∧
    Completes (.rxbyte .slave 0x9A) fifteenBytes ∧ Completes (.rxidle .master) fifteenBytes :=
  ⟨⟨_, rfl⟩, ⟨rfl, _, rfl⟩, ⟨rfl, _, rfl⟩, ⟨_, rfl⟩, _, rfl⟩

theorem witness_EachRegisterHasItsWriter :
    Completes (.objreq 9) State.reset ∧ (∀ d c, Instr.objreq 9 ≠ .adcevt d c) ∧ (∀ r, Instr.objreq 9 ≠ .oteval r) ∧
    (∀ q, Instr.objreq 9 ≠ .outen q) ∧ (∀ k x, Instr.objreq 9 ≠ .pwmset k x) ∧
    (∀ k n d, Instr.objreq 9 ≠ .mkprofile k n d) ∧ (∀ e, ¬ ReceivesAt e (.objreq 9)) ∧ ¬ MayRunSetpoint (.objreq 9) :=
  ⟨⟨_, rfl⟩, nofun, nofun, nofun, nofun, nofun, fun _ => by simp [ReceivesAt, wireBytes],
    by simp [MayRunSetpoint, wireBytes]⟩

theorem witness_ConversionCommutesWithReceivedByte :
    (1023 : BitVec 19).toNat < 2 ^ State.reset.par.adcBits ∧ State.reset.accCnt.toNat ≠ 8191 := by decide

theorem witness_GoodStatesStayGood :
    Good { afterScan with script := [0x13, 0x00, 0x17] } ∧
    ∃ t, step { afterScan with script := [0x13, 0x00, 0x17] } = .next t :=
  ⟨⟨by decide, by decide, by decide, by decide, by decide, by decide, by decide, by decide, by decide⟩, _, rfl⟩

end Sys2Proof.Tests
end

section
/-!
PROOFS. The operations of the frame codec: CKSUM and RXIDLE (40_codec_ops.md R66, R76).
-/
namespace Sys2Proof.Machine

theorem exec_cksum (bs : List Byte) (s : State) : exec (.cksum bs) s = .next (deliver (.checksum (cksum bs)) s) := rfl

theorem exec_rxidle (dst : End) (s : State) :
    exec (.rxidle dst) s = .next (setCodec dst (discardBuffer (codecAt dst s)) s) := rfl

theorem byteSum_cons (b : Byte) (bs : List Byte) : byteSum (b :: bs) = b + byteSum bs := by
  simp [byteSum, BitVec.ofNat_add]

/-- The wrapping 8-bit sum of the model is the natural-number sum reduced modulo 256 at its end (R66). -/
theorem cksum_eq_byteSum (bs : List Byte) : cksum bs = byteSum bs := by
  induction bs with
  | nil => rfl
  | cons b bs ih => rw [cksum, ih, byteSum_cons]

/-- Settles O5: CKSUM delivers the model's wrapping sum, which is the byte sum. -/
theorem checksumIsTheByteSum : Obligations.ChecksumIsTheByteSum := by
  unfold Obligations.ChecksumIsTheByteSum
  intro bs s
  rw [exec_cksum, cksum_eq_byteSum]
  rfl

/-- Settles O12: at either end RXIDLE only discards that end's buffer. -/
theorem idleEmptiesTheBuffer : Obligations.IdleEmptiesTheBuffer := by
  unfold Obligations.IdleEmptiesTheBuffer
  intro s
  exact ⟨exec_rxidle .slave s, exec_rxidle .master s⟩

end Sys2Proof.Machine
end

section
/-!
PROOFS. The burst scheduler: ADCEVT (42_adc_scheduler.md R107, R108).
-/
namespace Sys2Proof.Machine

theorem exec_adcevt (done : Bool) (code : BitVec 19) (s : State) :
    exec (.adcevt done code) s = execAdcevt done code s := rfl

/-- R108: the done flag is tested before the code's width, so even a code too wide to be an operand is ignored. -/
theorem execAdcevt_of_not_done (code : BitVec 19) (s : State) : execAdcevt false code s = .next s :=
  if_pos rfl

/-- Settles O30: a not-done event takes ADCEVT's first branch, which hands back the whole state. -/
theorem notDoneConversionIsIgnored : Obligations.NotDoneConversionIsIgnored := by
  unfold Obligations.NotDoneConversionIsIgnored
  intro code s
  rw [exec_adcevt, execAdcevt_of_not_done]

end Sys2Proof.Machine
end

section
/-!
PROOFS. The client's frames: OBJREQ (44_client_frames.md R149).
-/
namespace Sys2Proof.Machine

theorem exec_objreq (id : Byte) (s : State) : exec (.objreq id) s = .next (sendFrame .master 8 [id] s) := rfl

/-- The frame of an Object request (30_encoding.md R55): class 8 and length 2 in the header, the id, and their byte sum. -/
theorem buildFrame_objectRequest (id : Byte) : buildFrame 8 [id] = [0x82, id, byteSum [0x82, id]] := by
  have header : headerByte 8 (BitVec.ofNat 4 ([id].length + 1)) = 0x82 := by
    rw [List.length_singleton]
    decide
  simp only [buildFrame, header, cksum_eq_byteSum, List.cons_append, List.nil_append]

/-- Settles O51: OBJREQ only emits the frame built for class 8 and the id, which is the Object request. -/
theorem objectRequestIsBuilt : Obligations.ObjectRequestIsBuilt := by
  unfold Obligations.ObjectRequestIsBuilt
  intro id s
  rw [exec_objreq, sendFrame, buildFrame_objectRequest]
  rfl

end Sys2Proof.Machine
end

section
/-!
PROOFS. The event script: the decoder gives back every well-formed event (30_encoding.md R60, R62).
-/
namespace Sys2Proof

open Sys2Proof.Machine

@[simp] theorem decoded_pure {α : Type} (a : α) : (pure a : Except DecodeError α) = .ok a := rfl

/-- Decoding gives the event back and leaves the bytes behind it. -/
def RoundTrips (i : Instr) : Prop := ∀ rest : List Byte, decode (encode i ++ rest) = .ok (i, rest)

/-! ### Frame rows -/

/-- A frame of no named shape is read as FRAME.HDR (R62). -/
theorem frameAt_of_not_namedShape (d : End) (h : Byte) (body : List Byte) (hs : namedShape d h body = false) :
    frameAt d h body = .frameHdr d (headerClass h) (headerLen h) body := by
  cases d with
  | slave =>
    simp only [frameAt, frameToSlave]
    split <;> simp_all [namedShape]
  | master =>
    simp only [frameAt, frameToMaster]
    split <;> simp_all [namedShape]

/-- A frame row is given back when its wire bytes are read as that row: they are as many as their header announces. -/
theorem roundTrips_of_frameAt {i : Instr} {d : End} {h : Byte} {body : List Byte} (hw : i.wellFormed = true)
    (hb : wireBytes i = some (d, h :: body)) (he : encode i = encodeFrame i) (hf : frameAt d h body = i) :
    RoundTrips i := by
  intro rest
  have hl := wireBytes_body_length i d h body hw hb
  rw [he, encodeFrame, hb, List.cons_append, List.cons_append, decode_endByte, decodeFrame_append d h body rest hl, hf]

theorem frameHdr_roundTrips (d : End) (c n : BitVec 4) (body : List Byte)
    (hw : (Instr.frameHdr d c n body).wellFormed = true) : RoundTrips (.frameHdr d c n body) := by
  have hs : namedShape d (headerByte c n) body = false := by
    simpa using (Bool.and_eq_true_iff.mp hw).2
  refine roundTrips_of_frameAt hw rfl rfl ?_
  rw [frameAt_of_not_namedShape d _ body hs, headerClass_headerByte, headerLen_headerByte]

theorem setpointReq_roundTrips (on : Bool) (v i : Half) (k : Byte) : RoundTrips (.setpointReq on v i k) :=
  roundTrips_of_frameAt rfl rfl rfl (by cases on <;> simp [frameAt, frameToSlave, be16, boolByte, unBE16_be16])

theorem setpointReqAlt_roundTrips (on : Bool) (v i : Half) (k : Byte) : RoundTrips (.setpointReqAlt on v i k) :=
  roundTrips_of_frameAt rfl rfl rfl (by cases on <;> simp [frameAt, frameToSlave, be16, boolByte, unBE16_be16])

theorem setpointRsp_roundTrips (st : Byte) (v i : Half) (k : Byte) : RoundTrips (.setpointRsp st v i k) :=
  roundTrips_of_frameAt rfl rfl rfl (by simp [frameAt, frameToMaster, be16, unBE16_be16])

theorem objgetReq_roundTrips (id k : Byte) : RoundTrips (.objgetReq id k) := roundTrips_of_frameAt rfl rfl rfl rfl

theorem objgetRspData_roundTrips (id : Byte) (x : Half) (k : Byte) : RoundTrips (.objgetRspData id x k) :=
  roundTrips_of_frameAt rfl rfl rfl (by simp [frameAt, frameToMaster, be16, unBE16_be16])

theorem objgetRspNodata_roundTrips (id k : Byte) : RoundTrips (.objgetRspNodata id k) :=
  roundTrips_of_frameAt rfl rfl rfl rfl

/-! ### Operations -/

/-- A length byte bounded by `n` is read back. -/
theorem readName_length (row : String) (n : Nat) (p r : List Byte) (hp : p.length ≤ n) (hn : n < 256) :
    readName row (fun b => if b.toNat ≤ n then some b.toNat else none) (BitVec.ofNat 8 p.length :: r) =
      .ok (p.length, r) := by
  have hb : (BitVec.ofNat 8 p.length).toNat = p.length := by simp; omega
  simp [readName, hb, hp]

theorem readPayload_length (row : String) (p r : List Byte) (hp : p.length ≤ 14) :
    readPayload row (BitVec.ofNat 8 p.length :: (p ++ r)) = .ok (p, r) := by
  simp [readPayload, readName_length row 14 p _ hp, readList_append]

theorem cksum_roundTrips (bs : List Byte) (hl : bs.length < 65536) : RoundTrips (.cksum bs) := by
  intro rest
  have hb : bs.length % 65536 = bs.length := by omega
  simp [encode, decode, decodeTagged, decodeCksum, hb, readList_append]

theorem encode_roundTrips (e : End) (c : Half) (p : List Byte) (hl : p.length < 256) : RoundTrips (.encode e c p) := by
  intro rest
  have hb : p.length % 256 = p.length := by omega
  simp [encode, decode, decodeTagged, decodeEncode, hb, readList_append]

theorem decode_roundTrips (buf : List Byte) (hl : buf.length ≤ 16) : RoundTrips (.decode buf) := by
  intro rest
  simp [encode, decode, decodeTagged, decodeDecode, readName_length _ 16 buf _ hl, readList_append]

theorem mkprofile_roundTrips (k : Quantity) (num den : Word) (hd : den ≠ 0) : RoundTrips (.mkprofile k num den) := by
  intro rest
  have hd' : ¬ den = 0#32 := hd
  simp [encode, decode, decodeTagged, decodeMkprofile, hd']

theorem setpoint_roundTrips (p : List Byte) (hl : p.length ≤ 14) : RoundTrips (.setpoint p) := by
  intro rest
  simp [encode, decode, decodeTagged, decodeSetpoint, readPayload_length _ p _ hl]

theorem objget_roundTrips (p : List Byte) (hl : p.length ≤ 14) : RoundTrips (.objget p) := by
  intro rest
  simp [encode, decode, decodeTagged, decodeObjget, readPayload_length _ p _ hl]

/-- Every row is given back: the frame rows by their shape on the wire, the operations field by field. -/
theorem roundTrips (i : Instr) (hw : i.wellFormed = true) : RoundTrips i := by
  cases i with
  | frameHdr d c n body => exact frameHdr_roundTrips d c n body hw
  | setpointReq on v i k => exact setpointReq_roundTrips on v i k
  | setpointReqAlt on v i k => exact setpointReqAlt_roundTrips on v i k
  | setpointRsp st v i k => exact setpointRsp_roundTrips st v i k
  | objgetReq id k => exact objgetReq_roundTrips id k
  | objgetRspData id x k => exact objgetRspData_roundTrips id x k
  | objgetRspNodata id k => exact objgetRspNodata_roundTrips id k
  | cksum bs => exact cksum_roundTrips bs (of_decide_eq_true hw)
  | encode e c p => exact encode_roundTrips e c p (of_decide_eq_true hw)
  | decode buf => exact decode_roundTrips buf (of_decide_eq_true hw)
  | mkprofile k num den => exact mkprofile_roundTrips k num den (bne_iff_ne.mp hw)
  | setpoint p => exact setpoint_roundTrips p (of_decide_eq_true hw)
  | objget p => exact objget_roundTrips p (of_decide_eq_true hw)
  | rxbyte e b => intro rest; simp [encode, decode, decodeTagged, decodeRxbyte]
  | rxidle e => intro rest; simp [encode, decode, decodeTagged, decodeRxidle]
  | d2p k v => intro rest; simp [encode, decode, decodeTagged, decodeD2p]
  | p2d k v => intro rest; simp [encode, decode, decodeTagged, decodeP2d]
  | raw2pct i j => intro rest; simp [encode, decode, decodeTagged, decodeRaw2pct]
  | pct2pwm i v => intro rest; simp [encode, decode, decodeTagged, decodePct2pwm]
  | adcevt d c => intro rest; simp [encode, decode, decodeTagged, decodeAdcevt]
  | oteval r => intro rest; simp [encode, decode, decodeTagged, decodeOteval]
  | pwmset k v => intro rest; simp [encode, decode, decodeTagged, decodePwmset]
  | outen r => intro rest; simp [encode, decode, decodeTagged, decodeOuten]
  | setreq o v i => intro rest; simp [encode, decode, decodeTagged, decodeSetreq]
  | objreq id => intro rest; simp [encode, decode, decodeTagged, decodeObjreq]

/-- Settles O1: every row, frame or operation, is given back with the bytes behind it. -/
theorem decodeOfEncodeIsTheInstruction : Obligations.DecodeOfEncodeIsTheInstruction := by
  unfold Obligations.DecodeOfEncodeIsTheInstruction
  intro i rest hw
  exact roundTrips i hw rest

/-- Settles O2: each frame is decoded by evaluation. -/
theorem specFramesDecodeToTheirRows : Obligations.SpecFramesDecodeToTheirRows := by
  unfold Obligations.SpecFramesDecodeToTheirRows
  exact ⟨rfl, rfl, rfl, rfl, rfl, rfl, rfl⟩

end Sys2Proof
end

section
/-!
PROOFS. What each event comes to: exec by rows, and the writes ADCEVT is made of (42_adc_scheduler.md R107, R109, R110).
-/
namespace Sys2Proof.Machine

/-- R107: one code accumulated and counted. -/
def addSample (code : BitVec 19) (s : State) : State :=
  { s with accSum := s.accSum + code.setWidth 32, accCnt := s.accCnt + 1 }

/-- R109, R110: the reading published, the accumulator cleared, the scan advanced, before any interlock. -/
def publishBurst (s : State) : State :=
  emit (.adcSel (nextChannel s.scanIdx))
    { s with raw := publish s.scanIdx (average s.accSum) s.raw, accSum := 0, accCnt := 0,
             scanIdx := nextChannel s.scanIdx }

@[simp] theorem publishBurst_par (s : State) : (publishBurst s).par = s.par := rfl

theorem accCnt_addSample_eq_oversample (c : BitVec 19) (s : State) :
    (addSample c s).accCnt.toNat = oversample ↔ s.accCnt.toNat = 8191 := by
  have := s.accCnt.isLt
  simp [addSample, oversample]
  omega

/-- A conversion inside a burst only accumulates. -/
theorem accumulate_of_ne (c : BitVec 19) (s : State) (h : s.accCnt.toNat ≠ 8191) : accumulate c s = addSample c s :=
  if_neg (mt (accCnt_addSample_eq_oversample c s).mp h)

/-- The 8192nd conversion accumulates and ends the burst. -/
theorem accumulate_of_eq (c : BitVec 19) (s : State) (h : s.accCnt.toNat = 8191) :
    accumulate c s = finishBurst (addSample c s) :=
  if_pos ((accCnt_addSample_eq_oversample c s).mpr h)

theorem finishBurst_of_ne_temperature (s : State) (h : s.scanIdx ≠ .temperature) : finishBurst s = publishBurst s :=
  if_neg h

theorem finishBurst_of_temperature (s : State) (h : s.scanIdx = .temperature) :
    finishBurst s = evalInterlock (average s.accSum) (publishBurst s) :=
  if_pos h

/-- The end of a burst: another channel's, or the temperature channel's below or not below the threshold. -/
theorem finishBurst_cases (s : State) :
    (s.scanIdx ≠ .temperature ∧ finishBurst s = publishBurst s) ∨
    (s.scanIdx = .temperature ∧ average s.accSum < s.par.otThresh ∧ finishBurst s = takeOvertemp (publishBurst s)) ∨
    (s.scanIdx = .temperature ∧ s.par.otThresh ≤ average s.accSum ∧
      finishBurst s = { publishBurst s with otLatch := false }) := by
  by_cases hj : s.scanIdx = .temperature
  · rw [finishBurst_of_temperature s hj]
    obtain h | h := evalInterlock_cases (average s.accSum) (publishBurst s)
    · exact .inr (.inl ⟨hj, h⟩)
    · exact .inr (.inr ⟨hj, h⟩)
  · exact .inl ⟨hj, finishBurst_of_ne_temperature s hj⟩

/-- The gate as a conjunction: the request, and no latch (R128). -/
theorem gatedEnable_eq (latch req : Bool) : gatedEnable latch req = (req && !latch) := by
  cases latch <;> simp [gatedEnable]

theorem exec_oteval (r : Word) (s : State) : exec (.oteval r) s = execOteval r s := rfl
theorem exec_outen (q : Bool) (s : State) : exec (.outen q) s = .next (driveEnable q s) := rfl
theorem exec_setpoint (p : List Byte) (s : State) : exec (.setpoint p) s = runSetpoint p s := rfl
theorem exec_objget (p : List Byte) (s : State) : exec (.objget p) s = .next (runObjget p s) := rfl
theorem exec_rxbyte (d : End) (b : Byte) (s : State) : exec (.rxbyte d b) s = receiveByte d b s := rfl
theorem exec_pwmset (k : Quantity) (x : Word) (s : State) : exec (.pwmset k x) s = pwmSet k x.toNat s := rfl

@[simp] theorem finishBurst_raw (s : State) :
    (finishBurst s).raw = publish s.scanIdx (average s.accSum) s.raw := by
  obtain ⟨-, e⟩ | ⟨-, -, e⟩ | ⟨-, -, e⟩ := finishBurst_cases s <;> rw [e] <;> rfl

@[simp] theorem finishBurst_accSum (s : State) : (finishBurst s).accSum = 0 := by
  obtain ⟨-, e⟩ | ⟨-, -, e⟩ | ⟨-, -, e⟩ := finishBurst_cases s <;> rw [e] <;> rfl

@[simp] theorem finishBurst_accCnt (s : State) : (finishBurst s).accCnt = 0 := by
  obtain ⟨-, e⟩ | ⟨-, -, e⟩ | ⟨-, -, e⟩ := finishBurst_cases s <;> rw [e] <;> rfl

@[simp] theorem finishBurst_scanIdx (s : State) : (finishBurst s).scanIdx = nextChannel s.scanIdx := by
  obtain ⟨-, e⟩ | ⟨-, -, e⟩ | ⟨-, -, e⟩ := finishBurst_cases s <;> rw [e] <;> rfl

/-- R86: the profile of a kind written, and `DP[P]` once both kinds are. -/
def writeProfile (k : Quantity) (p : Profile) (s : State) : State :=
  { setProfile k p s with dpP := powerPlaces (setProfile k p s).profV (setProfile k p s).profI (setProfile k p s).dpP }

theorem exec_mkprofile (k : Quantity) (num den : Word) (s : State) :
    exec (.mkprofile k num den) s =
      orRefuse (deriveProfile num.toInt den.toNat) fun p => .next (writeProfile k p s) := rfl

theorem exec_encode (e : End) (c : Half) (p : List Byte) (s : State) :
    exec (.encode e c p) s =
      if 15 < c.toNat ∨ maxPayload < p.length then .refused .encodeOperands
      else .next (deliver (.frame (buildFrame (c.setWidth 4) p)) (sendFrame e (c.setWidth 4) p s)) := rfl

end Sys2Proof.Machine
end

section
/-!
PROOFS. The invariants: what every register write of an event keeps, every event, every step and every run keep. Each
invariant then says only what the writes of its own registers do (10_state.md R14 to R20, 60_exceptions.md R163).
-/
namespace Sys2Proof.Machine

/-! ### A property kept by every write -/

/-- `P` survives each register write an event can make. A write of registers `P` does not look at keeps it by
definition; such a field needs no proof. -/
structure KeptByWrites (P : State → Prop) : Prop where
  emits : ∀ e s, P s → P (emit e s) := by exact fun _ _ h => h
  pushes : ∀ d b s, verdictOf (accumulated (pushByte b (codecAt d s))) = .incomplete → P s →
    P (setCodec d (pushByte b (codecAt d s)) s) := by rintro (_ | _) _ _ - h <;> exact h
  discards : ∀ d c s, P s → P (setCodec d (discardBuffer c) s) := by rintro (_ | _) _ _ h <;> exact h
  derives : ∀ k n d p s, deriveProfile n d = .ok p → P s →
    P (writeProfile k p s) := by rintro (_ | _) _ _ _ _ - h <;> exact h
  adds : ∀ c s, c.toNat < 2 ^ s.par.adcBits → s.accCnt.toNat ≠ 8191 → P s → P (addSample c s) := by
    exact fun _ _ _ _ h => h
  finishes : ∀ c s, c.toNat < 2 ^ s.par.adcBits → s.accCnt.toNat = 8191 → P s → P (finishBurst (addSample c s)) := by
    intro c s _ _ h
    obtain ⟨-, e⟩ | ⟨-, -, e⟩ | ⟨-, -, e⟩ := finishBurst_cases (addSample c s) <;> rw [e] <;> exact h
  evaluates : ∀ r s, isPublishedTemperature r s = true → P s → P (evalInterlock r.toNat s) := by
    intro r s _ h
    obtain ⟨-, e⟩ | ⟨-, e⟩ := evalInterlock_cases r.toNat s <;> rw [e] <;> exact h
  enables : ∀ q s, P s → P (driveEnable q s) := by exact fun _ _ h => h
  loads : ∀ k c s, c ≤ s.par.pwmPeriod → P s → P (loadCompare k c s) := by rintro (_ | _) _ _ - h <;> exact h
  recordsV : ∀ v s, P s → P { s with spV := v } := by exact fun _ _ h => h
  recordsI : ∀ i s, P s → P { s with spI := i } := by exact fun _ _ h => h
  rejects : ∀ s, P s → P (takePowerLimit s) := by exact fun _ h => h

section Kept

variable {P : State → Prop} (hP : KeptByWrites P)
include hP

theorem KeptByWrites.pwmSet {k : Quantity} {x : Nat} {s t : State} (h : pwmSet k x s = .next t) (hs : P s) : P t := by
  obtain ⟨c, hc, rfl⟩ := pwmSet_eq_next.mp h
  exact hP.loads k c s (percentToPwm_le hc) hs

theorem KeptByWrites.updateVoltage {v : Half} {s t : State} (h : updateVoltage v s = .next t) (hs : P s) : P t := by
  obtain ⟨-, rfl⟩ | ⟨-, c, hc, rfl⟩ := updateVoltage_eq_next.mp h
  · exact hs
  · exact hP.loads .voltage c _ (percentToPwm_le hc) (hP.recordsV v s hs)

theorem KeptByWrites.updateCurrent {i : Half} {s t : State} (h : updateCurrent i s = .next t) (hs : P s) : P t := by
  obtain ⟨-, rfl⟩ | ⟨-, c, hc, rfl⟩ := updateCurrent_eq_next.mp h
  · exact hs
  · exact hP.loads .current c _ (percentToPwm_le hc) (hP.recordsI i s hs)

theorem KeptByWrites.runSetpoint {p : List Byte} {s t : State} (h : runSetpoint p s = .next t) (hs : P s) : P t := by
  obtain ⟨-, rfl⟩ | ⟨o, v, i, u, -, -, hu, ht⟩ := runSetpoint_eq_next h
  · exact hs
  · obtain ⟨rv, ri, -, -, rfl⟩ := respond_eq_next ht
    refine hP.emits _ u ?_
    obtain ⟨-, rfl⟩ | ⟨-, a, b, ha, hb, rfl⟩ := applySetpoint_eq_next hu
    · exact hP.rejects s hs
    · exact hP.enables _ b (hP.updateCurrent hb (hP.updateVoltage ha hs))

theorem KeptByWrites.runObjget (p : List Byte) {s : State} (hs : P s) : P (runObjget p s) := by
  obtain ⟨id, -, h⟩ | h := runObjget_cases p s <;> rw [h]
  · exact hP.emits _ s hs
  · exact hs

theorem KeptByWrites.dispatch {d : End} {c : BitVec 4} {p : List Byte} {s t : State} (h : dispatch d c p s = .next t)
    (hs : P s) : P t := by
  obtain rfl | ⟨-, -, h⟩ | ⟨-, -, rfl⟩ := dispatch_eq_next h
  · exact hs
  · exact hP.runSetpoint h hs
  · exact hP.runObjget p hs

theorem KeptByWrites.receiveByte {d : End} {b : Byte} {s t : State} (h : receiveByte d b s = .next t) (hs : P s) :
    P t := by
  obtain ⟨hv, h'⟩ | ⟨-, h'⟩ | ⟨c, p, -, h'⟩ := receiveByte_cases d b s <;> rw [h'] at h
  · cases h
    exact hP.pushes d b s hv hs
  · cases h
    exact hP.emits _ _ (hP.discards d _ s hs)
  · exact hP.dispatch h (hP.emits _ _ (hP.discards d _ s hs))

theorem KeptByWrites.receiveBytes {d : End} {bs : List Byte} {s t : State} (h : receiveBytes d bs s = .next t)
    (hs : P s) : P t :=
  receiveBytes_keeps (fun u v => P u → P v) (fun _ => id) (fun _ _ _ f g => g ∘ f) (fun _ _ _ => hP.receiveByte) bs s t
    h hs

theorem KeptByWrites.execAdcevt {d : Bool} {c : BitVec 19} {s t : State} (h : execAdcevt d c s = .next t) (hs : P s) :
    P t := by
  obtain ⟨-, rfl⟩ | ⟨-, hc, rfl⟩ := execAdcevt_eq_next h
  · exact hs
  · by_cases hn : s.accCnt.toNat = 8191
    · rw [accumulate_of_eq c s hn]
      exact hP.finishes c s hc hn hs
    · rw [accumulate_of_ne c s hn]
      exact hP.adds c s hc hn hs

theorem KeptByWrites.execOteval {r : Word} {s t : State} (h : execOteval r s = .next t) (hs : P s) : P t := by
  obtain ⟨hr, h'⟩ | ⟨-, h'⟩ := execOteval_cases r s <;> rw [h'] at h <;> cases h
  · exact hP.evaluates r s hr hs
  · exact hs

/-- Every event keeps it. -/
theorem KeptByWrites.exec {i : Instr} {s t : State} (h : exec i s = .next t) (hs : P s) : P t := by
  cases i with
  | frameHdr => exact hP.receiveBytes h hs
  | setpointReq => exact hP.receiveBytes h hs
  | setpointReqAlt => exact hP.receiveBytes h hs
  | setpointRsp => exact hP.receiveBytes h hs
  | objgetReq => exact hP.receiveBytes h hs
  | objgetRspData => exact hP.receiveBytes h hs
  | objgetRspNodata => exact hP.receiveBytes h hs
  | cksum => cases h; exact hP.emits _ s hs
  | encode =>
    rw [exec_encode] at h
    split at h <;> cases h
    exact hP.emits _ _ (hP.emits _ _ hs)
  | decode => cases h; exact hP.emits _ s hs
  | rxbyte => exact hP.receiveByte h hs
  | rxidle d => cases h; exact hP.discards d _ s hs
  | mkprofile k n d =>
    obtain ⟨p, hp, h⟩ := orRefuse_eq_next.mp h
    cases h
    exact hP.derives k _ _ p s hp hs
  | d2p => obtain ⟨v, -, h⟩ := orRefuse_eq_next.mp h; cases h; exact hP.emits _ s hs
  | p2d => obtain ⟨v, -, h⟩ := orRefuse_eq_next.mp h; cases h; exact hP.emits _ s hs
  | raw2pct => obtain ⟨v, -, h⟩ := orRefuse_eq_next.mp h; cases h; exact hP.emits _ s hs
  | pct2pwm => obtain ⟨v, -, h⟩ := orRefuse_eq_next.mp h; cases h; exact hP.emits _ s hs
  | adcevt => exact hP.execAdcevt h hs
  | oteval => exact hP.execOteval h hs
  | pwmset => exact hP.pwmSet h hs
  | outen q => cases h; exact hP.enables q s hs
  | setpoint => exact hP.runSetpoint h hs
  | objget p => cases h; exact hP.runObjget p hs
  | setreq o x y =>
    obtain ⟨v, -, h⟩ := orRefuse_eq_next.mp h
    obtain ⟨w, -, h⟩ := orRefuse_eq_next.mp h
    cases h
    exact hP.emits _ s hs
  | objreq => cases h; exact hP.emits _ s hs

/-- Every step keeps it, when it does not look at the script. -/
theorem KeptByWrites.step (hscript : ∀ r s, P s → P { s with script := r }) {s t : State} (h : step s = .next t)
    (hs : P s) : P t := by
  unfold Machine.step at h
  split at h
  · cases h
  · split at h
    · cases h
      exact hs
    · split at h
      · cases h
      · split at h
        · exact hP.exec h (hscript _ s hs)
        · cases h

/-- Every run keeps it. -/
theorem KeptByWrites.runAll {is : List Instr} {s t : State} (h : runAll is s = .next t) (hs : P s) : P t := by
  induction is generalizing s with
  | nil => cases h; exact hs
  | cons i is ih =>
    obtain ⟨u, hu, ht⟩ := andThen_eq_next.mp h
    exact ih ht (hP.exec hu hs)

end Kept

/-! ### The receivers (R73) -/

theorem verdictOf_eq_incomplete {h : Byte} {r : List Byte} (hv : verdictOf (h :: r) = .incomplete) :
    h.toNat % 16 ≠ 0 ∧ r.length < h.toNat % 16 := by
  unfold verdictOf at hv
  simp only [headerLen_toNat, List.length_cons] at hv
  split at hv
  · cases hv
  · split at hv
    · omega
    · split at hv
      · cases hv
      · split at hv <;> cases hv

/-- A byte after which the frame is still Incomplete leaves the receiver within its header. -/
theorem receiverOk_pushByte {c : Codec} {b : Byte} (hc : c.rxlen ≤ 15)
    (hv : verdictOf (accumulated (pushByte b c)) = .incomplete) : ReceiverOk (pushByte b c) := by
  have hl := accumulated_length (pushByte b c) (by rw [pushByte_rxlen]; omega)
  have h0 : (accumulated (pushByte b c))[0]? = some (pushByte b c).rxbuf[0] := by
    simp [accumulated]
  cases ha : accumulated (pushByte b c) with
  | nil => simp [ha] at hl
  | cons h r =>
    rw [ha] at hv hl h0
    obtain ⟨hn, hr⟩ := verdictOf_eq_incomplete hv
    have hh : h = (pushByte b c).rxbuf[0] := by simpa using h0
    simp only [List.length_cons] at hl
    rw [ReceiverOk, headerLen_toNat, ← hh]
    omega

theorem receivers_keptByWrites : KeptByWrites fun s => ReceiverOk s.rxM ∧ ReceiverOk s.rxS where
  pushes d b s hv hs := by
    cases d with
    | slave => exact ⟨hs.1, receiverOk_pushByte hs.2.1 hv⟩
    | master => exact ⟨receiverOk_pushByte hs.1.1 hv, hs.2⟩
  discards d c s hs := by
    have hd : ReceiverOk (discardBuffer c) := ⟨by simp, by simp⟩
    cases d with
    | slave => exact ⟨hs.1, hd⟩
    | master => exact ⟨hd, hs.2⟩

/-- Settles O13: only a received byte that leaves the frame Incomplete adds to a buffer, within its header. -/
theorem receiverInvariantIsKept : Obligations.ReceiverInvariantIsKept := by
  unfold Obligations.ReceiverInvariantIsKept
  intro s t hM hS h
  exact receivers_keptByWrites.step (fun _ _ h => h) h ⟨hM, hS⟩

/-! ### The latch and the output (R112, R163) -/

theorem interlocked_keptByWrites : KeptByWrites Interlocked where
  finishes c s _ _ hs := by
    obtain ⟨-, e⟩ | ⟨-, -, e⟩ | ⟨-, -, e⟩ := finishBurst_cases (addSample c s) <;> rw [e]
    · exact hs
    · exact nofun
    · exact fun _ => rfl
  evaluates r s _ hs := by
    obtain ⟨-, e⟩ | ⟨-, e⟩ := evalInterlock_cases r.toNat s <;> rw [e]
    · exact nofun
    · exact fun _ => rfl
  enables q s _ := by
    simp only [Interlocked, driveEnable_outEn, driveEnable_otLatch, gatedEnable_eq]
    simp

/-- Settles O41: the writes of the two flags are the interlock's and the gated enable's. -/
theorem interlockIsKept : Obligations.InterlockIsKept := by
  unfold Obligations.InterlockIsKept
  intro s t hs h
  exact interlocked_keptByWrites.step (fun _ _ h => h) h hs

/-- Settles O42: the interlock holds where the output is off, and every run keeps it. -/
theorem outputIsNeverOnUnderTheLatch : Obligations.OutputIsNeverOnUnderTheLatch := by
  unfold Obligations.OutputIsNeverOnUnderTheLatch
  intro is s t _ hout h
  exact interlocked_keptByWrites.runAll h (by simp [Interlocked, hout])

theorem publishBurst_temperature {s : State} (h : s.scanIdx = .temperature) :
    (publishBurst s).raw.temperature = ⟨average s.accSum, true⟩ := by
  simp [publishBurst, h, publish]

theorem publishBurst_temperature_of_ne {s : State} (h : s.scanIdx ≠ .temperature) :
    (publishBurst s).raw.temperature = s.raw.temperature :=
  readingAt_publish_of_ne (i := .temperature) (Ne.symm h) _ _

theorem latchFollows_keptByWrites : KeptByWrites LatchFollows where
  finishes c s _ _ hs := by
    obtain ⟨hj, e⟩ | ⟨hj, hr, e⟩ | ⟨hj, hr, e⟩ := finishBurst_cases (addSample c s) <;> rw [e]
    · rw [LatchFollows, publishBurst_temperature_of_ne hj]
      exact hs
    · simpa [LatchFollows, publishBurst_temperature hj] using hr
    · simpa [LatchFollows, publishBurst_temperature hj] using hr
  evaluates r s hr hs := by
    obtain ⟨hp, hv⟩ := (isPublishedTemperature_iff r s).mp hr
    obtain ⟨h, e⟩ | ⟨h, e⟩ := evalInterlock_cases r.toNat s <;> rw [e]
    · simpa [LatchFollows, hp, hv] using h
    · simpa [LatchFollows, hp, hv] using h

/-- Settles O38: the latch moves at a temperature publication, where it is set to what that reading says. -/
theorem latchFollowsTheTemperature : Obligations.LatchFollowsTheTemperature := by
  unfold Obligations.LatchFollowsTheTemperature
  intro s t hs h
  exact latchFollows_keptByWrites.step (fun _ _ h => h) h hs

end Sys2Proof.Machine
end

section
/-!
PROOFS. The good state: ranges of the accumulator, the readings, the compare registers and the profiles, and reset
(10_state.md R14, R17 to R19; 42_adc_scheduler.md R109).
-/
namespace Sys2Proof.Machine

/-! ### The accumulator and the readings -/

/-- What the ranges of the accumulator and the readings rest on: codes of at most 19 bits (D21). -/
abbrev AdcRangesOk (s : State) : Prop := s.par.adcBits ≤ 19 ∧ AccumulatorOk s ∧ ReadingsOk s

/-- One more code of `b` bits: the sum stays within the count's largest codes and far below 2^32 (R107). -/
theorem accSum_addSample {c : BitVec 19} {s : State} (hb : s.par.adcBits ≤ 19) (ha : AccumulatorOk s)
    (hc : c.toNat < 2 ^ s.par.adcBits) :
    (addSample c s).accSum.toNat = s.accSum.toNat + c.toNat ∧
    s.accSum.toNat + c.toNat ≤ (s.accCnt.toNat + 1) * (2 ^ s.par.adcBits - 1) := by
  obtain ⟨hn, hsum⟩ := ha
  have hpow : 2 ^ s.par.adcBits ≤ 2 ^ 19 := Nat.pow_le_pow_right (by omega) hb
  have hle : s.accSum.toNat + c.toNat ≤ (s.accCnt.toNat + 1) * (2 ^ s.par.adcBits - 1) := by
    rw [Nat.succ_mul]
    omega
  have hmax : (s.accCnt.toNat + 1) * (2 ^ s.par.adcBits - 1) ≤ 8192 * (2 ^ 19 - 1) :=
    Nat.mul_le_mul (by omega) (by omega)
  refine ⟨?_, hle⟩
  simp only [addSample, BitVec.toNat_add, BitVec.toNat_setWidth]
  omega

theorem accCnt_addSample {c : BitVec 19} {s : State} (hn : s.accCnt.toNat ≤ 8191) :
    (addSample c s).accCnt.toNat = s.accCnt.toNat + 1 := by
  simp [addSample]
  omega

theorem accumulatorOk_addSample {c : BitVec 19} {s : State} (hb : s.par.adcBits ≤ 19) (ha : AccumulatorOk s)
    (hc : c.toNat < 2 ^ s.par.adcBits) (hn : s.accCnt.toNat ≠ 8191) : AccumulatorOk (addSample c s) := by
  obtain ⟨hsum, hle⟩ := accSum_addSample hb ha hc
  have hmax := ha.1
  have hcnt := accCnt_addSample (c := c) hmax
  exact ⟨by omega, by rw [hsum, hcnt]; exact hle⟩

theorem average_eq_div (x : BitVec 32) : average x = (x.toNat + 256) / 512 := by
  simp [average, avgShift, Nat.shiftRight_eq_div_pow]

/-- The rounded sum of 8192 codes of `b` bits is at most `2^(b+4) - 16` (R109). -/
theorem average_addSample_le {c : BitVec 19} {s : State} (hb : s.par.adcBits ≤ 19) (ha : AccumulatorOk s)
    (hc : c.toNat < 2 ^ s.par.adcBits) (hn : s.accCnt.toNat = 8191) :
    average (addSample c s).accSum + 16 ≤ 2 ^ (s.par.adcBits + 4) := by
  obtain ⟨hsum, hle⟩ := accSum_addSample hb ha hc
  rw [average_eq_div, hsum, pow_add]
  rw [hn] at hle
  omega

theorem readingOk_readingAt {s : State} (h : ReadingsOk s) (j : Channel) :
    ReadingOk s.par.adcBits (readingAt j s.raw) := by
  obtain ⟨h0, h1, h2, h3, h4⟩ := h
  cases j <;> assumption

theorem readingsOk_iff (s : State) : ReadingsOk s ↔ ∀ j, ReadingOk s.par.adcBits (readingAt j s.raw) :=
  ⟨readingOk_readingAt, fun h => ⟨h .reference, h .current, h .voltage, h .loopback, h .temperature⟩⟩

theorem adcRangesOk_publishBurst {c : BitVec 19} {s : State} (hs : AdcRangesOk s) (hc : c.toNat < 2 ^ s.par.adcBits)
    (hn : s.accCnt.toNat = 8191) : AdcRangesOk (publishBurst (addSample c s)) := by
  obtain ⟨hb, ha, hr⟩ := hs
  have hv := average_addSample_le hb ha hc hn
  refine ⟨hb, ⟨by simp [publishBurst], by simp [publishBurst]⟩, (readingsOk_iff _).mpr fun j => ?_⟩
  by_cases hj : j = s.scanIdx
  · subst hj
    have he : readingAt s.scanIdx (publishBurst (addSample c s)).raw = ⟨average (addSample c s).accSum, true⟩ :=
      readingAt_publish _ _ _
    rw [he]
    exact ⟨Nat.lt_of_lt_of_le (Nat.lt_add_of_pos_right (by omega)) hv, fun _ => hv⟩
  · have he : readingAt j (publishBurst (addSample c s)).raw = readingAt j s.raw := readingAt_publish_of_ne hj _ _
    rw [he]
    exact readingOk_readingAt hr j

theorem adcRanges_keptByWrites : KeptByWrites AdcRangesOk where
  adds c s hc hn hs := by
    obtain ⟨hb, ha, hr⟩ := hs
    exact ⟨hb, accumulatorOk_addSample hb ha hc hn, hr⟩
  finishes c s hc hn hs := by
    have h := adcRangesOk_publishBurst hs hc hn
    obtain ⟨-, e⟩ | ⟨-, -, e⟩ | ⟨-, -, e⟩ := finishBurst_cases (addSample c s) <;> rw [e] <;> exact h

/-! ### The compare registers -/

theorem compare_keptByWrites : KeptByWrites CompareOk where
  loads k c s hc hs := by
    cases k with
    | voltage => exact ⟨hc, hs.2⟩
    | current => exact ⟨hs.1, hc⟩

/-! ### The profiles -/

/-- A rating's places fit: the display full scale does not exceed 9999 (R86). -/
theorem decimalPlaces_fits {num den : Nat} {dp : BitVec 2} (h : decimalPlaces num den = some dp) :
    num * 10 ^ dp.toNat ≤ 9999 * den := by
  unfold decimalPlaces dispMax at h
  split at h
  · cases h; simpa using ‹_›
  · split at h
    · cases h; simpa using ‹_›
    · split at h
      · cases h; simpa using ‹_›
      · split at h
        · cases h; simpa using ‹_›
        · cases h

/-- MKPROFILE's profile is that of an integer display full scale, 1 to 9999 (R86). -/
theorem deriveProfile_eq_ok {num : Int} {den : Nat} {p : Profile} (h : deriveProfile num den = .ok p) :
    ∃ dp ns, 1 ≤ ns ∧ ns ≤ 9999 ∧ p = profileOf dp ns := by
  unfold deriveProfile at h
  split at h
  · cases h
  · split at h
    · cases h
    · next hnum _ dp hdp =>
      split at h
      · next hdiv =>
        cases h
        have hfit := decimalPlaces_fits hdp
        obtain ⟨ns, hns⟩ := Nat.dvd_of_mod_eq_zero hdiv
        have hpos : 0 < num.toNat * 10 ^ dp.toNat := Nat.mul_pos (by omega) (by positivity)
        have hden : 0 < den := by
          rcases Nat.eq_zero_or_pos den with rfl | hd <;> omega
        refine ⟨dp, ns, ?_, ?_, by rw [hns, Nat.mul_div_cancel_left ns hden]⟩
        · rcases Nat.eq_zero_or_pos ns with rfl | hd <;> omega
        · rw [hns, Nat.mul_comm] at hfit
          exact Nat.le_of_mul_le_mul_right hfit hden
      · cases h

theorem profileOf_maxdisp_toNat {dp : BitVec 2} {ns : Nat} (h : ns ≤ 9999) : (profileOf dp ns).maxdisp.toNat = ns := by
  simp [profileOf]
  omega

theorem profileOk_profileOf {dp : BitVec 2} {ns : Nat} (h1 : 1 ≤ ns) (h2 : ns ≤ 9999) :
    ProfileOk (profileOf dp ns) := by
  rw [ProfileOk, profileOf_maxdisp_toNat h2]
  exact ⟨h1, h2, rfl⟩

/-- `DP[P]` is the sum once both kinds are written. -/
theorem powerPlaces_of_written {v i : Profile} {old : BitVec 3} (hv : v.written = true) (hi : i.written = true) :
    (powerPlaces v i old).toNat = v.dp.toNat + i.dp.toNat := by
  obtain ⟨-, -, h⟩ | ⟨h | h, -⟩ := powerPlaces_cases v i old
  · exact h
  · simp [hv] at h
  · simp [hi] at h

theorem profiles_keptByWrites : KeptByWrites ProfilesOk where
  derives k n d p s hp hs := by
    obtain ⟨hV, hI, -⟩ := hs
    obtain ⟨dp, ns, h1, h2, rfl⟩ := deriveProfile_eq_ok hp
    have hp' := profileOk_profileOf (dp := dp) h1 h2
    cases k with
    | voltage => exact ⟨fun _ => hp', hI, powerPlaces_of_written⟩
    | current => exact ⟨hV, fun _ => hp', powerPlaces_of_written⟩

/-! ### The whole state -/

theorem parameters_keptByWrites (p : Params) : KeptByWrites fun s => s.par = p where

/-- Settles O59: each conjunct is kept by the writes of its own registers, the others leave it as it is. -/
theorem goodStatesStayGood : Obligations.GoodStatesStayGood := by
  unfold Obligations.GoodStatesStayGood
  rintro s t ⟨hpar, hM, hS, hout, hlatch, hacc, hread, hcmp, hprof⟩ h
  obtain ⟨hM', hS'⟩ := receivers_keptByWrites.step (fun _ _ h => h) h ⟨hM, hS⟩
  have hadc : AdcRangesOk s := ⟨hpar.2.2.2.1, hacc, hread⟩
  obtain ⟨-, hacc', hread'⟩ := adcRanges_keptByWrites.step (fun _ _ h => h) h hadc
  have hpar' := (parameters_keptByWrites s.par).step (fun _ _ h => h) h rfl
  exact ⟨hpar' ▸ hpar, hM', hS', interlocked_keptByWrites.step (fun _ _ h => h) h hout,
    latchFollows_keptByWrites.step (fun _ _ h => h) h hlatch, hacc', hread',
    compare_keptByWrites.step (fun _ _ h => h) h hcmp, profiles_keptByWrites.step (fun _ _ h => h) h hprof⟩

/-! ### Reset -/

theorem readingOk_reset (j : Nat) : ReadingOk Params.setA.adcBits (Reading.reset j) :=
  ⟨Nat.mod_lt _ (by decide), nofun⟩

theorem compareReset_le (k : Nat) : compareReset k ≤ Params.setA.pwmPeriod :=
  Nat.le_of_lt_succ (Nat.mod_lt _ (by decide))

/-- Settles O58: the free values at reset are within their registers' ranges, and nothing is published or written. -/
theorem resetIsGood : Obligations.ResetIsGood := by
  unfold Obligations.ResetIsGood
  refine ⟨by decide, ⟨by decide, nofun⟩, ⟨by decide, nofun⟩, nofun, rfl, ⟨by decide, by decide⟩, ?_, ?_,
    nofun, nofun, nofun⟩
  · exact ⟨readingOk_reset 0, readingOk_reset 1, readingOk_reset 2, readingOk_reset 3, readingOk_reset 4⟩
  · exact ⟨compareReset_le 0, compareReset_le 1⟩

/-- Settles O57: the reset values stand in State.reset. -/
theorem resetState : Obligations.ResetState := by
  unfold Obligations.ResetState
  refine ⟨rfl, rfl, rfl, rfl, rfl, rfl, rfl, ?_, ?_⟩
  · intro j
    cases j <;> rfl
  · intro k
    cases k <;> rfl

end Sys2Proof.Machine
end

section
/-!
PROOFS. The step: when it runs an event and when it stops (60_exceptions.md R162, R166).
-/
namespace Sys2Proof.Machine

/-! ### No event traps -/

theorem pwmSet_ne_fault (k : Quantity) (x : Nat) (s : State) (f : Fault) : pwmSet k x s ≠ .fault f :=
  orRefuse_ne_fault fun _ => nofun

theorem andThen_ne_fault {o : Out} {g : State → Out} {f : Fault} (ho : o ≠ .fault f) (hg : ∀ s, g s ≠ .fault f) :
    andThen o g ≠ .fault f := by
  rw [ne_eq, andThen_eq_fault]
  rintro (h | ⟨s, -, h⟩)
  · exact ho h
  · exact hg s h

theorem updateVoltage_ne_fault (v : Half) (s : State) (f : Fault) : updateVoltage v s ≠ .fault f := by
  unfold updateVoltage
  split
  · nofun
  · exact pwmSet_ne_fault _ _ _ f

theorem updateCurrent_ne_fault (i : Half) (s : State) (f : Fault) : updateCurrent i s ≠ .fault f := by
  unfold updateCurrent
  split
  · nofun
  · exact pwmSet_ne_fault _ _ _ f

theorem applySetpoint_ne_fault (o : Bool) (v i : Half) (s : State) (f : Fault) : applySetpoint o v i s ≠ .fault f := by
  unfold applySetpoint
  split
  · nofun
  · exact andThen_ne_fault (updateVoltage_ne_fault v s f) fun a =>
      andThen_ne_fault (updateCurrent_ne_fault i a f) fun _ => nofun

theorem respond_ne_fault (s : State) (f : Fault) : respond s ≠ .fault f :=
  orRefuse_ne_fault fun _ => orRefuse_ne_fault fun _ => nofun

theorem runSetpoint_ne_fault (p : List Byte) (s : State) (f : Fault) : runSetpoint p s ≠ .fault f := by
  unfold runSetpoint
  split
  · nofun
  · split
    · nofun
    · exact andThen_ne_fault (applySetpoint_ne_fault _ _ _ s f) fun u => respond_ne_fault u f

theorem dispatch_ne_fault (d : End) (c : BitVec 4) (p : List Byte) (s : State) (f : Fault) :
    dispatch d c p s ≠ .fault f := by
  unfold dispatch
  cases d with
  | master => nofun
  | slave =>
    simp only
    split
    · exact runSetpoint_ne_fault p s f
    · split <;> nofun

theorem receiveByte_ne_fault (d : End) (b : Byte) (s : State) (f : Fault) : receiveByte d b s ≠ .fault f := by
  obtain ⟨-, h⟩ | ⟨-, h⟩ | ⟨c, p, -, h⟩ := receiveByte_cases d b s <;> rw [h]
  · nofun
  · nofun
  · exact dispatch_ne_fault d c p _ f

theorem receiveBytes_ne_fault (d : End) (bs : List Byte) (s : State) (f : Fault) : receiveBytes d bs s ≠ .fault f := by
  induction bs generalizing s with
  | nil => nofun
  | cons b bs ih => exact andThen_ne_fault (receiveByte_ne_fault d b s f) ih

/-- R166: no event of the block traps. -/
theorem exec_ne_fault (i : Instr) (s : State) (f : Fault) : exec i s ≠ .fault f := by
  cases i with
  | frameHdr => exact receiveBytes_ne_fault _ _ s f
  | setpointReq => exact receiveBytes_ne_fault _ _ s f
  | setpointReqAlt => exact receiveBytes_ne_fault _ _ s f
  | setpointRsp => exact receiveBytes_ne_fault _ _ s f
  | objgetReq => exact receiveBytes_ne_fault _ _ s f
  | objgetRspData => exact receiveBytes_ne_fault _ _ s f
  | objgetRspNodata => exact receiveBytes_ne_fault _ _ s f
  | cksum => nofun
  | encode => rw [exec_encode]; split <;> nofun
  | decode => nofun
  | rxbyte d b => exact receiveByte_ne_fault d b s f
  | rxidle => nofun
  | mkprofile => exact orRefuse_ne_fault fun _ => nofun
  | d2p => exact orRefuse_ne_fault fun _ => nofun
  | p2d => exact orRefuse_ne_fault fun _ => nofun
  | raw2pct => exact orRefuse_ne_fault fun _ => nofun
  | pct2pwm => exact orRefuse_ne_fault fun _ => nofun
  | adcevt =>
    rw [exec_adcevt]
    unfold execAdcevt
    split
    · nofun
    · split <;> nofun
  | oteval => nofun
  | pwmset k x => exact pwmSet_ne_fault k _ s f
  | outen => nofun
  | setpoint p => exact runSetpoint_ne_fault p s f
  | objget => nofun
  | setreq => exact orRefuse_ne_fault fun _ => orRefuse_ne_fault fun _ => nofun
  | objreq => nofun

/-! ### The step's branches -/

theorem step_of_not_bootDone {s : State} (h : s.par.bootDone = false) : step s = .fault .ispFail := if_pos h

theorem step_of_no_event {s : State} (hb : s.par.bootDone = true) (hs : s.script = []) : step s = .next s := by
  simp [step, hb, hs]

theorem step_of_undecodable {s : State} {e : DecodeError} (hb : s.par.bootDone = true) (hs : s.script ≠ [])
    (hd : decode s.script = .error e) : step s = .refused (.undecodable e) := by
  cases hc : s.script with
  | nil => exact absurd hc hs
  | cons tag bytes => rw [hc] at hd; simp [step, hb, hc, hd]

theorem step_of_event {s : State} {i : Instr} {rest : List Byte} (hb : s.par.bootDone = true)
    (hd : decode s.script = .ok (i, rest)) :
    step s = if i.wellFormed then exec i { s with script := rest } else .refused .illFormed := by
  cases hc : s.script with
  | nil => rw [hc] at hd; cases hd
  | cons tag bytes => rw [hc] at hd; simp [step, hb, hc, hd]

/-- Settles O3: the branch of the step that runs an event. -/
theorem stepRunsTheDecodedEvent : Obligations.StepRunsTheDecodedEvent := by
  unfold Obligations.StepRunsTheDecodedEvent
  intro s i rest hb hd hw
  rw [step_of_event hb hd, if_pos hw]

/-- The only fault of a step is the one before the hand-off. -/
theorem bootDone_of_step_fault {s : State} {f : Fault} (h : step s = .fault f) : s.par.bootDone = false := by
  by_contra hb
  rw [Bool.not_eq_false] at hb
  by_cases hs : s.script = []
  · rw [step_of_no_event hb hs] at h
    cases h
  · cases hd : decode s.script with
    | error e =>
      rw [step_of_undecodable hb hs hd] at h
      cases h
    | ok d =>
      rw [step_of_event hb hd] at h
      split at h
      · exact exec_ne_fault _ _ f h
      · cases h

/-- Settles O4: the step's branches one by one, and no event traps. -/
theorem stepStopsOnlyByName : Obligations.StepStopsOnlyByName := by
  unfold Obligations.StepStopsOnlyByName
  intro s
  exact ⟨step_of_not_bootDone, step_of_no_event, fun hb hs _ => step_of_undecodable hb hs,
    fun _ => bootDone_of_step_fault⟩

end Sys2Proof.Machine
end

section
/-!
PROOFS. Frames: what each event leaves unchanged, and the writers of each register (10_state.md R24).
-/
namespace Sys2Proof.Machine

/-! ### Events that only emit -/

theorem emitted_emit (e : Emission) (s : State) : s.emitted <+: (emit e s).emitted := ⟨[e], rfl⟩

theorem OnlyEmits.refl (s : State) : OnlyEmits s s := ⟨rfl, [], List.append_nil _⟩

/-- From here on one emission more. -/
theorem OnlyEmits.emits {s t : State} (h : OnlyEmits s t) (e : Emission) : OnlyEmits s (emit e t) := by
  obtain ⟨ht, hp⟩ := h
  exact ⟨congrArg (emit e) ht, hp.trans (emitted_emit e t)⟩

/-- An operation that hands over a computed value only emits. -/
theorem onlyEmits_of_orRefuse {α : Type} {v : Except Refusal α} {f : α → Emission} {s t : State}
    (h : orRefuse v (fun a => .next (emit (f a) s)) = .next t) : OnlyEmits s t := by
  obtain ⟨a, -, h⟩ := orRefuse_eq_next.mp h
  cases h
  exact (OnlyEmits.refl s).emits (f a)

/-- The ten events that compute a value or send a frame. -/
inductive IsValueEvent : Instr → Prop
  | cksum bs : IsValueEvent (.cksum bs)
  | encode e c p : IsValueEvent (.encode e c p)
  | decode buf : IsValueEvent (.decode buf)
  | d2p k x : IsValueEvent (.d2p k x)
  | p2d k x : IsValueEvent (.p2d k x)
  | raw2pct i j : IsValueEvent (.raw2pct i j)
  | pct2pwm i x : IsValueEvent (.pct2pwm i x)
  | objget p : IsValueEvent (.objget p)
  | setreq o x y : IsValueEvent (.setreq o x y)
  | objreq id : IsValueEvent (.objreq id)

/-- Each of them emits once, or as OBJGET not at all, or as ENCODE twice. -/
theorem exec_onlyEmits {i : Instr} {s t : State} (hi : IsValueEvent i) (h : exec i s = .next t) : OnlyEmits s t := by
  have once (e : Emission) : OnlyEmits s (emit e s) := (OnlyEmits.refl s).emits e
  cases hi with
  | cksum => cases h; exact once _
  | encode =>
    rw [exec_encode] at h
    split at h
    · cases h
    · cases h
      exact (once _).emits _
  | decode => cases h; exact once _
  | d2p => exact onlyEmits_of_orRefuse h
  | p2d => exact onlyEmits_of_orRefuse h
  | raw2pct => exact onlyEmits_of_orRefuse h
  | pct2pwm => exact onlyEmits_of_orRefuse h
  | objget p =>
    cases h
    obtain ⟨id, -, e⟩ | e := runObjget_cases p s <;> rw [e]
    · exact once _
    · exact OnlyEmits.refl s
  | setreq =>
    obtain ⟨v, -, h⟩ := orRefuse_eq_next.mp h
    exact onlyEmits_of_orRefuse h
  | objreq => cases h; exact once _

/-- Settles O52: the frame of the value events, one by one. -/
theorem valueEventsChangeNoRegister : Obligations.ValueEventsChangeNoRegister := by
  unfold Obligations.ValueEventsChangeNoRegister
  rintro s t (⟨_, h⟩ | ⟨_, _, _, h⟩ | ⟨_, h⟩ | ⟨_, _, h⟩ | ⟨_, _, h⟩ | ⟨_, _, h⟩ | ⟨_, _, h⟩ | ⟨_, h⟩ | ⟨_, _, _, h⟩ |
    ⟨_, h⟩)
  · exact exec_onlyEmits (.cksum _) h
  · exact exec_onlyEmits (.encode _ _ _) h
  · exact exec_onlyEmits (.decode _) h
  · exact exec_onlyEmits (.d2p _ _) h
  · exact exec_onlyEmits (.p2d _ _) h
  · exact exec_onlyEmits (.raw2pct _ _) h
  · exact exec_onlyEmits (.pct2pwm _ _) h
  · exact exec_onlyEmits (.objget _) h
  · exact exec_onlyEmits (.setreq _ _ _) h
  · exact exec_onlyEmits (.objreq _) h

/-- What was emitted stays emitted, whatever is written. -/
theorem emitted_keptByWrites (es : List Emission) : KeptByWrites fun s => es <+: s.emitted where
  emits e s h := h.trans ⟨_, rfl⟩
  finishes c s _ _ h := by
    have hb : es <+: (publishBurst (addSample c s)).emitted := h.trans ⟨_, rfl⟩
    obtain ⟨-, e⟩ | ⟨-, -, e⟩ | ⟨-, -, e⟩ := finishBurst_cases (addSample c s) <;> rw [e]
    · exact hb
    · exact hb.trans ⟨_, rfl⟩
    · exact hb
  evaluates r s _ h := by
    obtain ⟨-, e⟩ | ⟨-, e⟩ := evalInterlock_cases r.toNat s <;> rw [e]
    · exact h.trans ⟨_, rfl⟩
    · exact h
  enables q s h := h.trans ⟨_, rfl⟩
  loads k c s _ h := by
    cases k <;> exact h.trans ⟨_, rfl⟩
  rejects s h := h.trans ⟨_, rfl⟩

/-! ### ADCEVT and OTEVAL -/

/-- What ADCEVT may change beside the current channel's reading. -/
def ConversionFrame (s t : State) : Prop :=
  t = { s with scanIdx := t.scanIdx, accSum := t.accSum, accCnt := t.accCnt, raw := t.raw, otLatch := t.otLatch,
               outEn := t.outEn, emitted := t.emitted }

theorem accumulate_frame (c : BitVec 19) (s : State) : ConversionFrame s (accumulate c s) := by
  by_cases hn : s.accCnt.toNat = 8191
  · rw [accumulate_of_eq c s hn]
    obtain ⟨-, e⟩ | ⟨-, -, e⟩ | ⟨-, -, e⟩ := finishBurst_cases (addSample c s) <;> rw [e] <;> rfl
  · rw [accumulate_of_ne c s hn]
    rfl

theorem exec_adcevt_frame {d : Bool} {c : BitVec 19} {s t : State} (h : exec (.adcevt d c) s = .next t) :
    ConversionFrame s t := by
  obtain ⟨-, rfl⟩ | ⟨-, -, rfl⟩ := execAdcevt_eq_next h
  · rfl
  · exact accumulate_frame c s

theorem accumulate_readingAt_of_ne (c : BitVec 19) {s : State} {j : Channel} (h : j ≠ s.scanIdx) :
    readingAt j (accumulate c s).raw = readingAt j s.raw := by
  by_cases hn : s.accCnt.toNat = 8191
  · rw [accumulate_of_eq c s hn, finishBurst_raw]
    exact readingAt_publish_of_ne h _ _
  · rw [accumulate_of_ne c s hn]
    rfl

/-- What OTEVAL may change. -/
def InterlockFrame (s t : State) : Prop := t = { s with otLatch := t.otLatch, outEn := t.outEn, emitted := t.emitted }

theorem exec_oteval_frame {r : Word} {s t : State} (h : exec (.oteval r) s = .next t) : InterlockFrame s t := by
  obtain ⟨-, e⟩ | ⟨-, e⟩ := execOteval_cases r s <;> rw [exec_oteval, e] at h <;> cases h
  · obtain ⟨-, e⟩ | ⟨-, e⟩ := evalInterlock_cases r.toNat s <;> rw [e] <;> rfl
  · rfl

/-- Settles O53: the frames of the five register writers. -/
theorem slaveAndProfileEventFrames : Obligations.SlaveAndProfileEventFrames := by
  unfold Obligations.SlaveAndProfileEventFrames
  intro s t
  refine ⟨fun d c h => ⟨exec_adcevt_frame h, ?_⟩, fun r h => exec_oteval_frame h, fun x h => ?_, fun x h => ?_,
    fun q h => ?_, fun n d h => ?_, fun n d h => ?_⟩
  · obtain ⟨-, rfl⟩ | ⟨-, -, rfl⟩ := execAdcevt_eq_next h
    · exact fun _ _ => rfl
    · exact fun j hj => accumulate_readingAt_of_ne c hj
  · obtain ⟨c, -, rfl⟩ := pwmSet_eq_next.mp h
    rfl
  · obtain ⟨c, -, rfl⟩ := pwmSet_eq_next.mp h
    rfl
  · cases h
    rfl
  · obtain ⟨p, -, h⟩ := orRefuse_eq_next.mp h
    cases h
    rfl
  · obtain ⟨p, -, h⟩ := orRefuse_eq_next.mp h
    cases h
    rfl

/-! ### SETPOINT and what arrives -/

/-- What SETPOINT may change. -/
def SetpointFrame (s t : State) : Prop :=
  t = { s with spV := t.spV, spI := t.spI, pwmCmpV := t.pwmCmpV, pwmCmpI := t.pwmCmpI, outEn := t.outEn,
               diagCount := t.diagCount, emitted := t.emitted }

/-- What may change at the slave when something arrives there. -/
def SlaveFrame (s t : State) : Prop :=
  t = { s with rxS := t.rxS, spV := t.spV, spI := t.spI, pwmCmpV := t.pwmCmpV, pwmCmpI := t.pwmCmpI, outEn := t.outEn,
               diagCount := t.diagCount, emitted := t.emitted }

/-- What may change at the master when something arrives there. -/
def MasterFrame (s t : State) : Prop := t = { s with rxM := t.rxM, emitted := t.emitted }

theorem runSetpoint_frame {p : List Byte} {s t : State} (h : runSetpoint p s = .next t) : SetpointFrame s t := by
  obtain ⟨-, rfl⟩ | ⟨o, v, i, u, -, -, hu, ht⟩ := runSetpoint_eq_next h
  · rfl
  · obtain ⟨rv, ri, -, -, rfl⟩ := respond_eq_next ht
    obtain ⟨-, rfl⟩ | ⟨-, a, b, ha, hb, rfl⟩ := applySetpoint_eq_next hu
    · rfl
    · obtain ⟨-, rfl⟩ | ⟨-, c, -, rfl⟩ := updateVoltage_eq_next.mp ha <;>
        obtain ⟨-, rfl⟩ | ⟨-, c, -, rfl⟩ := updateCurrent_eq_next.mp hb <;> rfl

theorem SlaveFrame.trans (r s t : State) (hs : SlaveFrame r s) (ht : SlaveFrame s t) : SlaveFrame r t := by
  unfold SlaveFrame at *
  rw [ht, hs]

theorem MasterFrame.trans (r s t : State) (hs : MasterFrame r s) (ht : MasterFrame s t) : MasterFrame r t := by
  unfold MasterFrame at *
  rw [ht, hs]

theorem runSetpoint_slaveFrame {p : List Byte} {s t : State} (h : runSetpoint p s = .next t) : SlaveFrame s t := by
  have hs := runSetpoint_frame h
  unfold SetpointFrame at hs
  unfold SlaveFrame
  rw [hs]

theorem dispatch_slaveFrame {c : BitVec 4} {p : List Byte} {s t : State} (h : dispatch .slave c p s = .next t) :
    SlaveFrame s t := by
  obtain rfl | ⟨-, -, h⟩ | ⟨-, -, rfl⟩ := dispatch_eq_next h
  · rfl
  · exact runSetpoint_slaveFrame h
  · obtain ⟨id, -, e⟩ | e := runObjget_cases p s <;> rw [e] <;> rfl

theorem receiveByte_slaveFrame (b : Byte) (s t : State) (h : receiveByte .slave b s = .next t) : SlaveFrame s t := by
  obtain ⟨-, e⟩ | ⟨-, e⟩ | ⟨c, p, -, e⟩ := receiveByte_cases .slave b s <;> rw [e] at h
  · cases h
    rfl
  · cases h
    rfl
  · refine SlaveFrame.trans s _ t ?_ (dispatch_slaveFrame h)
    rfl

theorem receiveByte_masterFrame (b : Byte) (s t : State) (h : receiveByte .master b s = .next t) : MasterFrame s t := by
  obtain ⟨-, e⟩ | ⟨-, e⟩ | ⟨c, p, -, e⟩ := receiveByte_cases .master b s <;> rw [e] at h <;> cases h <;> rfl

/-- What a byte, an idle event or a frame at an end may change. -/
theorem exec_slaveFrame {i : Instr} {s t : State} (hi : ReceivesAt .slave i) (h : exec i s = .next t) :
    SlaveFrame s t := by
  obtain ⟨bs, hb⟩ | ⟨b, rfl⟩ | rfl := hi
  · rw [exec_of_wireBytes i .slave bs s hb] at h
    exact receiveBytes_keeps SlaveFrame (fun _ => rfl) SlaveFrame.trans receiveByte_slaveFrame bs s t h
  · exact receiveByte_slaveFrame b s t h
  · cases h
    rfl

theorem exec_masterFrame {i : Instr} {s t : State} (hi : ReceivesAt .master i) (h : exec i s = .next t) :
    MasterFrame s t := by
  obtain ⟨bs, hb⟩ | ⟨b, rfl⟩ | rfl := hi
  · rw [exec_of_wireBytes i .master bs s hb] at h
    exact receiveBytes_keeps MasterFrame (fun _ => rfl) MasterFrame.trans receiveByte_masterFrame bs s t h
  · exact receiveByte_masterFrame b s t h
  · cases h
    rfl

/-- Settles O54: SETPOINT's frame, and a byte's chained over the bytes of a frame. -/
theorem receiveAndSetpointFrames : Obligations.ReceiveAndSetpointFrames := by
  unfold Obligations.ReceiveAndSetpointFrames
  intro s t
  refine ⟨fun p h => runSetpoint_frame h, fun i dst bytes hi h => ?_⟩
  have hr : ReceivesAt dst i := hi.imp_left fun hb => ⟨bytes, hb⟩
  constructor
  · rintro rfl
    exact exec_masterFrame hr h
  · rintro rfl
    exact exec_slaveFrame hr h

/-! ### The writers of each register -/

/-- What every event leaves alone. -/
theorem exec_fixed {i : Instr} {s t : State} (h : exec i s = .next t) :
    t.par = s.par ∧ t.spOvp = s.spOvp ∧ t.spOcp = s.spOcp ∧ t.script = s.script ∧ s.emitted <+: t.emitted :=
  have fixed : KeptByWrites fun u => u.par = s.par ∧ u.spOvp = s.spOvp ∧ u.spOcp = s.spOcp ∧ u.script = s.script := { }
  have ⟨hp, hv, hc, hs⟩ := fixed.exec h ⟨rfl, rfl, rfl, rfl⟩
  ⟨hp, hv, hc, hs, (emitted_keptByWrites s.emitted).exec h ⟨[], List.append_nil _⟩⟩

/-- Each register but those no event writes is as it was, unless the event is one of its writers. -/
def WrittenByWriters (i : Instr) (s t : State) : Prop :=
  (∀ e, ¬ ReceivesAt e i → codecAt e t = codecAt e s) ∧
  ((∀ d c, i ≠ .adcevt d c) →
    t.scanIdx = s.scanIdx ∧ t.accSum = s.accSum ∧ t.accCnt = s.accCnt ∧ t.raw = s.raw) ∧
  ((∀ d c, i ≠ .adcevt d c) → (∀ r, i ≠ .oteval r) → t.otLatch = s.otLatch) ∧
  ((∀ d c, i ≠ .adcevt d c) → (∀ r, i ≠ .oteval r) → (∀ q, i ≠ .outen q) → ¬ MayRunSetpoint i → t.outEn = s.outEn) ∧
  ((∀ x, i ≠ .pwmset .voltage x) → ¬ MayRunSetpoint i → t.pwmCmpV = s.pwmCmpV) ∧
  ((∀ x, i ≠ .pwmset .current x) → ¬ MayRunSetpoint i → t.pwmCmpI = s.pwmCmpI) ∧
  (¬ MayRunSetpoint i → t.spV = s.spV ∧ t.spI = s.spI ∧ t.diagCount = s.diagCount) ∧
  ((∀ n d, i ≠ .mkprofile .voltage n d) → t.profV = s.profV) ∧
  ((∀ n d, i ≠ .mkprofile .current n d) → t.profI = s.profI) ∧
  ((∀ k n d, i ≠ .mkprofile k n d) → t.dpP = s.dpP)

theorem writtenByWriters_of_onlyEmits {i : Instr} {s t : State} (h : OnlyEmits s t) : WrittenByWriters i s t := by
  rw [WrittenByWriters, h.1]
  refine ⟨fun e _ => by cases e <;> rfl, ?_⟩
  simp

theorem writtenByWriters_of_master {i : Instr} {s t : State} (hi : ReceivesAt .master i) (h : MasterFrame s t) :
    WrittenByWriters i s t := by
  rw [WrittenByWriters, h]
  refine ⟨fun e he => ?_, by simp⟩
  cases e with
  | slave => rfl
  | master => exact absurd hi he

theorem writtenByWriters_of_slave {i : Instr} {s t : State} (hi : ReceivesAt .slave i) (hr : MayRunSetpoint i)
    (h : SlaveFrame s t) : WrittenByWriters i s t := by
  rw [WrittenByWriters, h]
  refine ⟨fun e he => ?_, by simp [hr]⟩
  cases e with
  | slave => exact absurd hi he
  | master => rfl

theorem writtenByWriters_of_wireBytes {i : Instr} {d : End} {bs : List Byte} {s t : State}
    (hb : wireBytes i = some (d, bs)) (h : exec i s = .next t) : WrittenByWriters i s t := by
  cases d with
  | master => exact writtenByWriters_of_master (.inl ⟨bs, hb⟩) (exec_masterFrame (.inl ⟨bs, hb⟩) h)
  | slave => exact writtenByWriters_of_slave (.inl ⟨bs, hb⟩) (.inr (.inr ⟨bs, hb⟩)) (exec_slaveFrame (.inl ⟨bs, hb⟩) h)

/-- R24, event by event. -/
theorem exec_writtenByWriters {i : Instr} {s t : State} (h : exec i s = .next t) : WrittenByWriters i s t := by
  have value (hi : IsValueEvent i) : WrittenByWriters i s t := writtenByWriters_of_onlyEmits (exec_onlyEmits hi h)
  cases i with
  | frameHdr => exact writtenByWriters_of_wireBytes rfl h
  | setpointReq => exact writtenByWriters_of_wireBytes rfl h
  | setpointReqAlt => exact writtenByWriters_of_wireBytes rfl h
  | setpointRsp => exact writtenByWriters_of_wireBytes rfl h
  | objgetReq => exact writtenByWriters_of_wireBytes rfl h
  | objgetRspData => exact writtenByWriters_of_wireBytes rfl h
  | objgetRspNodata => exact writtenByWriters_of_wireBytes rfl h
  | rxbyte d b =>
    cases d with
    | master => exact writtenByWriters_of_master (.inr (.inl ⟨b, rfl⟩)) (receiveByte_masterFrame b s t h)
    | slave =>
      exact writtenByWriters_of_slave (.inr (.inl ⟨b, rfl⟩)) (.inr (.inl ⟨b, rfl⟩)) (receiveByte_slaveFrame b s t h)
  | rxidle d =>
    cases h
    cases d with
    | master => exact writtenByWriters_of_master (.inr (.inr rfl)) rfl
    | slave =>
      refine ⟨fun e he => ?_, by simp⟩
      cases e with
      | slave => exact absurd (.inr (.inr rfl)) he
      | master => rfl
  | adcevt d c =>
    rw [WrittenByWriters, exec_adcevt_frame h]
    exact ⟨fun e _ => by cases e <;> rfl, by simp⟩
  | oteval r =>
    rw [WrittenByWriters, exec_oteval_frame h]
    exact ⟨fun e _ => by cases e <;> rfl, by simp⟩
  | pwmset k x =>
    obtain ⟨c, -, rfl⟩ := pwmSet_eq_next.mp h
    cases k <;> exact ⟨fun e _ => by cases e <;> rfl, by simp⟩
  | outen q =>
    cases h
    exact ⟨fun e _ => by cases e <;> rfl, by simp⟩
  | mkprofile k n d =>
    obtain ⟨p, -, h⟩ := orRefuse_eq_next.mp h
    cases h
    cases k <;> exact ⟨fun e _ => by cases e <;> rfl, by simp⟩
  | setpoint p =>
    rw [WrittenByWriters, runSetpoint_frame h]
    exact ⟨fun e _ => by cases e <;> rfl, by simp [MayRunSetpoint]⟩
  | cksum => exact value (.cksum _)
  | encode => exact value (.encode _ _ _)
  | decode => exact value (.decode _)
  | d2p => exact value (.d2p _ _)
  | p2d => exact value (.p2d _ _)
  | raw2pct => exact value (.raw2pct _ _)
  | pct2pwm => exact value (.pct2pwm _ _)
  | objget => exact value (.objget _)
  | setreq => exact value (.setreq _ _ _)
  | objreq => exact value (.objreq _)

/-- Settles O55: what no event writes, and each other register by the frames of the events. -/
theorem eachRegisterHasItsWriter : Obligations.EachRegisterHasItsWriter := by
  unfold Obligations.EachRegisterHasItsWriter
  intro i s t h
  obtain ⟨hpar, hovp, hocp, hscript, hem⟩ := exec_fixed h
  exact ⟨hpar, hovp, hocp, hscript, hem, exec_writtenByWriters h⟩

end Sys2Proof.Machine
end

section
/-!
PROOFS. The ADC scheduler and the interlock: conversions, bursts, and who moves the latch (42_adc_scheduler.md R107 to
R113).
-/
namespace Sys2Proof.Machine

/-! ### One conversion -/

theorem execAdcevt_of_wide {code : BitVec 19} {s : State} (h : 2 ^ s.par.adcBits ≤ code.toNat) :
    execAdcevt true code s = .refused .codeTooWide := by
  simp [execAdcevt, h]

theorem execAdcevt_of_done {code : BitVec 19} {s : State} (h : code.toNat < 2 ^ s.par.adcBits) :
    execAdcevt true code s = .next (accumulate code s) := by
  simp [execAdcevt, Nat.not_le.mpr h]

/-- Settles O33: the width test stands before the accumulation. -/
theorem wideCodeIsNoOperand : Obligations.WideCodeIsNoOperand := by
  unfold Obligations.WideCodeIsNoOperand
  intro code s h
  rw [exec_adcevt, execAdcevt_of_wide h]

/-- Settles O31: inside a burst ADCEVT is one sample added, without overflow. -/
theorem conversionIsAccumulated : Obligations.ConversionIsAccumulated := by
  unfold Obligations.ConversionIsAccumulated
  intro code s hb ha hc hn
  refine ⟨addSample code s, ?_, (accSum_addSample hb ha hc).1, accCnt_addSample ha.1, rfl⟩
  rw [exec_adcevt, execAdcevt_of_done hc, accumulate_of_ne code s (by omega)]

/-! ### The end of a burst -/

theorem channelByte_nextChannel (c : Channel) :
    (channelByte (nextChannel c)).toNat = ((channelByte c).toNat + 1) % 5 := by
  cases c <;> rfl

/-- The value the 8192nd conversion publishes. -/
theorem average_addSample {code : BitVec 19} {s : State} (hb : s.par.adcBits ≤ 19) (ha : AccumulatorOk s)
    (hc : code.toNat < 2 ^ s.par.adcBits) :
    average (addSample code s).accSum = (s.accSum.toNat + code.toNat + 256) / 512 := by
  rw [average_eq_div, (accSum_addSample hb ha hc).1]

/-- Settles O32: the end of a burst by the interlock's cases. -/
theorem lastConversionCompletesTheBurst : Obligations.LastConversionCompletesTheBurst := by
  unfold Obligations.LastConversionCompletesTheBurst
  intro code s hb ha hc hn r trips
  have hr : average (addSample code s).accSum = r := average_addSample hb ha hc
  have hraw : (finishBurst (addSample code s)).raw = publish s.scanIdx r s.raw := by
    rw [finishBurst_raw, hr]
    rfl
  refine ⟨finishBurst (addSample code s), ?_, ?_, ?_, finishBurst_accSum _, finishBurst_accCnt _, ?_, ?_, ?_, ?_⟩
  · rw [exec_adcevt, execAdcevt_of_done hc, accumulate_of_eq code s hn]
  · rw [hraw, readingAt_publish]
  · intro j hj
    rw [hraw, readingAt_publish_of_ne hj]
  · rw [finishBurst_scanIdx]
    exact channelByte_nextChannel s.scanIdx
  · rintro ⟨hj, hlt⟩
    obtain ⟨hj', -⟩ | ⟨-, -, e⟩ | ⟨-, hge, -⟩ := finishBurst_cases (addSample code s)
    · exact absurd hj hj'
    · rw [e]
      exact ⟨rfl, rfl, List.append_assoc _ _ _⟩
    · rw [hr] at hge
      exact absurd hlt (Nat.not_lt.mpr hge)
  · intro hnot
    obtain ⟨hj, e⟩ | ⟨hj, hlt, -⟩ | ⟨hj, -, e⟩ := finishBurst_cases (addSample code s)
    · rw [e]
      exact ⟨rfl, rfl, (if_neg hj).symm⟩
    · rw [hr] at hlt
      exact absurd ⟨hj, hlt⟩ hnot
    · rw [e]
      exact ⟨rfl, rfl, (if_pos hj).symm⟩
  · obtain ⟨-, e⟩ | ⟨-, -, e⟩ | ⟨-, -, e⟩ := finishBurst_cases (addSample code s) <;> rw [e] <;> rfl

/-! ### Runs of conversions -/

/-- The events of a run of conversions. -/
abbrev conversions (es : List (Bool × BitVec 19)) : List Instr := es.map fun e => .adcevt e.1 e.2

/-- The codes of its completed conversions, as numbers. -/
def completedCodes (es : List (Bool × BitVec 19)) : List Nat := (es.filter (·.1)).map fun e => e.2.toNat

theorem completedCodes_length (es : List (Bool × BitVec 19)) :
    (completedCodes es).length = (es.filter (·.1)).length := List.length_map _

@[simp] theorem completedCodes_cons_true (c : BitVec 19) (es : List (Bool × BitVec 19)) :
    completedCodes ((true, c) :: es) = c.toNat :: completedCodes es := rfl

theorem runAll_conversions_cons_false (c : BitVec 19) (es : List (Bool × BitVec 19)) (s : State) :
    runAll (conversions ((false, c) :: es)) s = runAll (conversions es) s := by
  simp [runAll, exec_adcevt, execAdcevt_of_not_done]

theorem runAll_conversions_cons_true {c : BitVec 19} {s : State} (hc : c.toNat < 2 ^ s.par.adcBits)
    (es : List (Bool × BitVec 19)) :
    runAll (conversions ((true, c) :: es)) s = runAll (conversions es) (accumulate c s) := by
  simp [runAll, exec_adcevt, execAdcevt_of_done hc]

/-- Without a completed conversion nothing happens (R108). -/
theorem runAll_conversions_of_none {es : List (Bool × BitVec 19)} (h : completedCodes es = []) (s : State) :
    runAll (conversions es) s = .next s := by
  induction es with
  | nil => rfl
  | cons e es ih =>
    obtain ⟨d, c⟩ := e
    cases d with
    | false => rw [runAll_conversions_cons_false, ih h]
    | true => cases h

theorem accumulatorOk_of_empty {s : State} (hsum : s.accSum = 0) (hcnt : s.accCnt = 0) : AccumulatorOk s := by
  simp [AccumulatorOk, hsum, hcnt]

/-- Inside a burst the completed conversions add up, wherever it starts. -/
theorem runAll_conversions_short (es : List (Bool × BitVec 19)) (s : State) (hb : s.par.adcBits ≤ 19)
    (ha : AccumulatorOk s) (hc : ∀ e ∈ es, e.1 = true → e.2.toNat < 2 ^ s.par.adcBits)
    (hn : s.accCnt.toNat + (completedCodes es).length < 8192) :
    ∃ t, runAll (conversions es) s = .next t ∧ t.accCnt.toNat = s.accCnt.toNat + (completedCodes es).length ∧
      t.accSum.toNat = s.accSum.toNat + (completedCodes es).sum ∧
      t = { s with accSum := t.accSum, accCnt := t.accCnt } := by
  induction es generalizing s with
  | nil => exact ⟨s, rfl, rfl, rfl, rfl⟩
  | cons e es ih =>
    obtain ⟨hce, hces⟩ := List.forall_mem_cons.mp hc
    obtain ⟨d, c⟩ := e
    cases d with
    | false =>
      rw [runAll_conversions_cons_false]
      exact ih s hb ha hces hn
    | true =>
      have hc' : c.toNat < 2 ^ s.par.adcBits := hce rfl
      simp only [completedCodes_cons_true, List.length_cons, List.sum_cons] at hn ⊢
      have hcnt := accCnt_addSample (c := c) ha.1
      have hsum := (accSum_addSample hb ha hc').1
      obtain ⟨t, hrun, htcnt, htsum, ht⟩ := ih (addSample c s) hb
        (accumulatorOk_addSample hb ha hc' (by omega)) hces (by omega)
      refine ⟨t, ?_, by omega, by omega, ht⟩
      rw [runAll_conversions_cons_true hc', accumulate_of_ne c s (by omega), hrun]

/-- Settles O35: the run inside a burst, from an empty accumulator. -/
theorem shortBurstPublishesNothing : Obligations.ShortBurstPublishesNothing := by
  unfold Obligations.ShortBurstPublishesNothing
  intro es s hb hsum hcnt hc hn
  rw [← completedCodes_length] at hn ⊢
  obtain ⟨t, hrun, htcnt, htsum, ht⟩ := runAll_conversions_short es s hb (accumulatorOk_of_empty hsum hcnt) hc
    (by simpa [hcnt] using hn)
  exact ⟨t, hrun, by simpa [hcnt] using htcnt, by simpa [hsum, completedCodes] using htsum, ht⟩

/-- A run that reaches the 8192nd completed conversion with its last one publishes once. -/
theorem runAll_conversions_burst (es : List (Bool × BitVec 19)) (s : State) (hb : s.par.adcBits ≤ 19)
    (ha : AccumulatorOk s) (hc : ∀ e ∈ es, e.1 = true → e.2.toNat < 2 ^ s.par.adcBits)
    (hn : s.accCnt.toNat + (completedCodes es).length = 8192) :
    ∃ t, runAll (conversions es) s = .next t ∧
      t.raw = publish s.scanIdx ((s.accSum.toNat + (completedCodes es).sum + 256) / 512) s.raw ∧
      t.accSum = 0 ∧ t.accCnt = 0 ∧ t.scanIdx = nextChannel s.scanIdx := by
  induction es generalizing s with
  | nil =>
    have hle := ha.1
    have hn' : s.accCnt.toNat = 8192 := hn
    omega
  | cons e es ih =>
    obtain ⟨hce, hces⟩ := List.forall_mem_cons.mp hc
    obtain ⟨d, c⟩ := e
    cases d with
    | false =>
      rw [runAll_conversions_cons_false]
      exact ih s hb ha hces hn
    | true =>
      have hc' : c.toNat < 2 ^ s.par.adcBits := hce rfl
      simp only [completedCodes_cons_true, List.length_cons, List.sum_cons] at hn ⊢
      rw [runAll_conversions_cons_true hc']
      by_cases hlast : s.accCnt.toNat = 8191
      · have hnone : completedCodes es = [] := List.length_eq_zero_iff.mp (by omega)
        refine ⟨finishBurst (addSample c s), ?_, ?_, finishBurst_accSum _, finishBurst_accCnt _, finishBurst_scanIdx _⟩
        · rw [accumulate_of_eq c s hlast, runAll_conversions_of_none hnone]
        · rw [finishBurst_raw, average_addSample hb ha hc', hnone]
          rfl
      · have hcnt := accCnt_addSample (c := c) ha.1
        obtain ⟨t, hrun, hraw, hsum, hcnt0, hidx⟩ := ih (addSample c s) hb
          (accumulatorOk_addSample hb ha hc' hlast) hces (by omega)
        refine ⟨t, by rw [accumulate_of_ne c s hlast, hrun], ?_, hsum, hcnt0, hidx⟩
        rw [hraw, (accSum_addSample hb ha hc').1, Nat.add_assoc s.accSum.toNat]
        rfl

/-- Settles O34: the run that completes one burst, from an empty accumulator. -/
theorem burstPublishesTheRoundedSum : Obligations.BurstPublishesTheRoundedSum := by
  unfold Obligations.BurstPublishesTheRoundedSum
  intro es s hb hsum hcnt hc hn
  obtain ⟨t, hrun, hraw, hsum', hcnt', hidx⟩ := runAll_conversions_burst es s hb (accumulatorOk_of_empty hsum hcnt) hc
    (by simpa [hcnt, completedCodes_length] using hn)
  have hzero : s.accSum.toNat = 0 := by simp [hsum]
  rw [hzero, Nat.zero_add] at hraw
  exact ⟨t, hrun, by rw [hraw, readingAt_publish, completedCodes],
    fun j hj => by rw [hraw, readingAt_publish_of_ne hj], hsum', hcnt', hidx⟩

/-! ### The interlock -/

theorem isPublishedTemperature_eq_true {r : Word} {s : State} (h : s.raw.temperature = ⟨r.toNat, true⟩) :
    isPublishedTemperature r s = true := by
  rw [isPublishedTemperature_iff, h]
  exact ⟨rfl, rfl⟩

theorem temperature_of_isPublishedTemperature {r : Word} {s : State} (h : isPublishedTemperature r s = true) :
    s.raw.temperature = ⟨r.toNat, true⟩ := by
  obtain ⟨hp, hv⟩ := (isPublishedTemperature_iff r s).mp h
  rw [← hp, ← hv]

theorem execOteval_of_published {r : Word} {s : State} (h : s.raw.temperature = ⟨r.toNat, true⟩) :
    execOteval r s = .next (evalInterlock r.toNat s) := by
  rw [execOteval, if_pos (isPublishedTemperature_eq_true h)]

theorem execOteval_of_not_published {r : Word} {s : State} (h : s.raw.temperature ≠ ⟨r.toNat, true⟩) :
    execOteval r s = .next s := by
  rw [execOteval, if_neg (mt temperature_of_isPublishedTemperature h)]

theorem evalInterlock_of_lt {r : Nat} {s : State} (h : r < s.par.otThresh) : evalInterlock r s = takeOvertemp s :=
  if_pos h

theorem evalInterlock_of_le {r : Nat} {s : State} (h : s.par.otThresh ≤ r) :
    evalInterlock r s = { s with otLatch := false } := if_neg (Nat.not_lt.mpr h)

/-- Settles O36: OTEVAL of the published reading is the interlock, of another operand nothing. -/
theorem interlockComparesWithTheThreshold : Obligations.InterlockComparesWithTheThreshold := by
  unfold Obligations.InterlockComparesWithTheThreshold
  intro r s
  refine ⟨fun hp hlt => ?_, fun hp hle => ?_, fun hp => ?_⟩
  · rw [exec_oteval, execOteval_of_published hp, evalInterlock_of_lt hlt]
    rfl
  · rw [exec_oteval, execOteval_of_published hp, evalInterlock_of_le hle]
  · rw [exec_oteval, execOteval_of_not_published hp]

/-- Settles O37: where the latch already stands as the reading says, the interlock only drives the port again. -/
theorem directEvaluationMovesNoFlag : Obligations.DirectEvaluationMovesNoFlag := by
  unfold Obligations.DirectEvaluationMovesNoFlag
  intro r s hl hi
  by_cases hp : s.raw.temperature = ⟨r.toNat, true⟩
  · rw [exec_oteval, execOteval_of_published hp]
    rw [LatchFollows, hp] at hl
    obtain ⟨hlt, e⟩ | ⟨hle, e⟩ := evalInterlock_cases r.toNat s
    · have hlatch : s.otLatch = true := by simpa [hlt] using hl
      have hout : s.outEn = false := by
        by_contra h
        exact absurd (hi (by simpa using h)) (by simp [hlatch])
      refine .inr ?_
      rw [e, takeOvertemp, ← hlatch, ← hout]
      rfl
    · have hlatch : s.otLatch = false := by simpa [Nat.not_lt.mpr hle] using hl
      refine .inl ?_
      rw [e, ← hlatch]
  · exact .inl (by rw [exec_oteval, execOteval_of_not_published hp])

/-- The event that publishes a temperature reading `r`. -/
def PublishesTemperature (i : Instr) (s t : State) (r : Nat) : Prop :=
  ∃ code, i = .adcevt true code ∧ s.scanIdx = .temperature ∧ s.accCnt.toNat = 8191 ∧ t.raw.temperature = ⟨r, true⟩

/-- Of the conversions only a temperature publication at or above the threshold clears the latch; it leaves `OUT_EN`. -/
theorem exec_adcevt_latch {d : Bool} {c : BitVec 19} {s t : State} (h : exec (.adcevt d c) s = .next t)
    (hl : s.otLatch = true) :
    t.otLatch = true ∨
      t.outEn = s.outEn ∧ ∃ r, PublishesTemperature (.adcevt d c) s t r ∧ s.par.otThresh ≤ r := by
  obtain ⟨-, rfl⟩ | ⟨rfl, -, rfl⟩ := execAdcevt_eq_next h
  · exact .inl hl
  · by_cases hn : s.accCnt.toNat = 8191
    · rw [accumulate_of_eq c s hn]
      obtain ⟨-, e⟩ | ⟨-, -, e⟩ | ⟨hj, hle, e⟩ := finishBurst_cases (addSample c s)
      · rw [e]
        exact .inl hl
      · rw [e]
        exact .inl rfl
      · refine .inr ⟨by rw [e]; rfl, average (addSample c s).accSum, ⟨c, rfl, hj, hn, ?_⟩, hle⟩
        rw [finishBurst_raw, hj]
        rfl
    · rw [accumulate_of_ne c s hn]
      exact .inl hl

/-- Where the latch stands as the last publication left it, OTEVAL on its own does not clear it. -/
theorem exec_oteval_latch {r : Word} {s t : State} (h : exec (.oteval r) s = .next t) (hf : LatchFollows s)
    (hl : s.otLatch = true) : t.otLatch = true := by
  by_cases hp : s.raw.temperature = ⟨r.toNat, true⟩
  · rw [LatchFollows, hl, hp] at hf
    have hlt : r.toNat < s.par.otThresh := by simpa using hf
    rw [exec_oteval, execOteval_of_published hp, evalInterlock_of_lt hlt] at h
    cases h
    rfl
  · rw [exec_oteval, execOteval_of_not_published hp] at h
    cases h
    exact hl

/-- R113: under the latch the output stays off, and only a recovered reading clears the latch. -/
theorem exec_latched {i : Instr} {s t : State} (hf : LatchFollows s) (hl : s.otLatch = true) (hout : s.outEn = false)
    (h : exec i s = .next t) :
    t.outEn = false ∧ (t.otLatch = true ∨ ∃ r, PublishesTemperature i s t r ∧ s.par.otThresh ≤ r) := by
  have latched (htl : t.otLatch = true) :
      t.outEn = false ∧ (t.otLatch = true ∨ ∃ r, PublishesTemperature i s t r ∧ s.par.otThresh ≤ r) := by
    have hi : Interlocked t := interlocked_keptByWrites.exec h (by simp [Interlocked, hout])
    refine ⟨?_, .inl htl⟩
    by_contra hon
    exact absurd (hi (by simpa using hon)) (by simp [htl])
  obtain ⟨-, -, hwriters, -⟩ := exec_writtenByWriters h
  cases i with
  | adcevt d c =>
    obtain htl | ⟨hout', hpub⟩ := exec_adcevt_latch h hl
    · exact latched htl
    · exact ⟨hout'.trans hout, .inr hpub⟩
  | oteval r => exact latched (exec_oteval_latch h hf hl)
  | _ => exact latched ((hwriters nofun nofun).trans hl)

/-- Settles O39: the events under the latch, the clearing one written out. -/
theorem latchHoldsTheOutputOff : Obligations.LatchHoldsTheOutputOff := by
  unfold Obligations.LatchHoldsTheOutputOff
  intro i s t hf hl hout h
  obtain ⟨hout', htl | ⟨r, ⟨code, hi, hj, hn, hr⟩, hle⟩⟩ := exec_latched hf hl hout h
  · exact ⟨hout', .inl htl⟩
  · exact ⟨hout', .inr ⟨code, r, hi, hj, hn, hr, hle⟩⟩

/-- Settles O40: by induction on the run; the first event that clears the latch is the one asked for. -/
theorem outputReturnsOnlyAfterARecoveredReading : Obligations.OutputReturnsOnlyAfterARecoveredReading := by
  unfold Obligations.OutputReturnsOnlyAfterARecoveredReading
  intro is
  induction is with
  | nil =>
    intro s t _ _ hout h hon
    cases h
    simp [hout] at hon
  | cons i is ih =>
    intro s t hf hl hout h hon
    obtain ⟨u, hu, ht⟩ := andThen_eq_next.mp h
    obtain ⟨hout', hul | ⟨r, ⟨code, rfl, hj, hn, hr⟩, hle⟩⟩ := exec_latched hf hl hout hu
    · obtain ⟨pre, code, post, v, w, r, rfl, hpre, hv, hj, hn, hr, hle⟩ :=
        ih u t (latchFollows_keptByWrites.exec hu hf) hul hout' ht hon
      have hpar := (exec_fixed hu).1
      exact ⟨i :: pre, code, post, v, w, r, rfl, andThen_eq_next.mpr ⟨u, hu, hpre⟩, hv, hj, hn, hr, hpar ▸ hle⟩
    · exact ⟨[], code, is, s, u, r, rfl, rfl, hu, hj, hn, hr, hle⟩

/-- Settles O44: the gate is the conjunction of the request and the latch's negation. -/
theorem enableIsGatedByTheLatch : Obligations.EnableIsGatedByTheLatch := by
  unfold Obligations.EnableIsGatedByTheLatch
  intro req s
  rw [exec_outen, driveEnable, gatedEnable_eq]
  rfl

end Sys2Proof.Machine
end

section
/-!
PROOFS. Frames and verdicts: what ENCODE builds, DECODE says of it (40_codec_ops.md R67 to R75).
-/
namespace Sys2Proof.Machine

/-! ### The frame by arithmetic -/

/-- The model's header bits are the spec's `16 * class + N`. -/
theorem headerByte_eq_ofNat (c : BitVec 4) {n : Nat} (hn : n ≤ 15) :
    headerByte c (BitVec.ofNat 4 n) = BitVec.ofNat 8 (16 * c.toNat + n) := by
  apply BitVec.eq_of_toNat_eq
  have := c.isLt
  simp [headerByte_toNat]
  omega

theorem buildFrame_eq_frameOf (c : BitVec 4) {p : List Byte} (hp : p.length ≤ 14) :
    buildFrame c p = frameOf c.toNat p := by
  simp only [buildFrame, frameOf, headerByte_eq_ofNat c (show p.length + 1 ≤ 15 by omega), cksum_eq_byteSum]

theorem headerClass_eq_ofNat (h : Byte) : headerClass h = BitVec.ofNat 4 (h.toNat / 16) := by
  apply BitVec.eq_of_toNat_eq
  have := h.isLt
  simp [headerClass_toNat]
  omega

/-- The header of `frameOf`. -/
theorem frameOf_header {c : Nat} {p : List Byte} (hc : c ≤ 15) (hp : p.length ≤ 14) :
    ∃ h : Byte, h.toNat % 16 = p.length + 1 ∧ h.toNat / 16 = c ∧ frameOf c p = h :: (p ++ [cksum (h :: p)]) := by
  refine ⟨BitVec.ofNat 8 (16 * c + (p.length + 1)), ?_, ?_, by rw [cksum_eq_byteSum]; rfl⟩
  · simp
    omega
  · simp
    omega

/-- Settles O6: ENCODE's operand test, and the frame by arithmetic. -/
theorem encodeBuildsTheFrameOrIsRefused : Obligations.EncodeBuildsTheFrameOrIsRefused := by
  unfold Obligations.EncodeBuildsTheFrameOrIsRefused
  intro src cls payload s
  rw [exec_encode]
  constructor
  · intro hc hp
    have hcls : (cls.setWidth 4).toNat = cls.toNat := by simp; omega
    rw [if_neg (by simp only [maxPayload]; omega), buildFrame_eq_frameOf _ hp, sendFrame, buildFrame_eq_frameOf _ hp,
      hcls]
    simp [deliver, emit]
  · intro h
    rw [if_pos (by simpa [maxPayload] using h)]

/-! ### Verdicts -/

theorem exec_decode (buf : List Byte) (s : State) :
    exec (.decode buf) s = .next { s with emitted := s.emitted ++ [.result (.verdict (verdictOf buf))] } := rfl

/-- R69 by arithmetic: the header's N, the length, the checksum. -/
theorem verdictOf_cons (h : Byte) (body : List Byte) :
    verdictOf (h :: body) =
      if h.toNat % 16 = 0 then .invalid
      else if body.length < h.toNat % 16 then .incomplete
      else if h.toNat % 16 < body.length then .invalid
      else if body.getLast? = some (byteSum (h :: body.dropLast)) then
        .complete (BitVec.ofNat 4 (h.toNat / 16)) body.dropLast
      else .invalid := by
  by_cases h0 : h.toNat % 16 = 0
  · simp [verdictOf, headerLen_toNat, h0]
  by_cases hlt : body.length < h.toNat % 16
  · rw [verdictOf_short h body h0 hlt, if_neg h0, if_pos hlt]
  by_cases hgt : h.toNat % 16 < body.length
  · simp [verdictOf, headerLen_toNat, h0, hlt, hgt]
  · obtain rfl | ⟨r, x, rfl⟩ := List.eq_nil_or_concat body
    · simp at hlt
      omega
    · have hl : h.toNat % 16 = r.length + 1 := by simp at hlt hgt; omega
      rw [List.concat_eq_append, verdictOf_full h r x hl, headerClass_eq_ofNat, cksum_eq_byteSum]
      simp [hl]

/-- Settles O7: the verdict of the empty buffer, and of any other by arithmetic. -/
theorem decodeGivesTheVerdict : Obligations.DecodeGivesTheVerdict := by
  unfold Obligations.DecodeGivesTheVerdict
  intro s
  refine ⟨rfl, fun h body => ?_⟩
  rw [exec_decode, verdictOf_cons]

/-- Every proper part from the start of a frame is Incomplete. -/
theorem verdictOf_take {h : Byte} {body : List Byte} {n : Nat} (hl : body.length = h.toNat % 16)
    (hn : n < (h :: body).length) : verdictOf ((h :: body).take n) = .incomplete := by
  cases n with
  | zero => rfl
  | succ n =>
    simp only [List.length_cons] at hn
    exact verdictOf_short h _ (by omega) (by simp; omega)

theorem verdictOf_frameOf {c : Nat} {p : List Byte} (hc : c ≤ 15) (hp : p.length ≤ 14) :
    verdictOf (frameOf c p) = .complete (BitVec.ofNat 4 c) p := by
  obtain ⟨h, hn, hcls, hf⟩ := frameOf_header hc hp
  rw [hf, verdictOf_full h p _ hn, if_pos rfl, headerClass_eq_ofNat, hcls]

/-- Settles O8: the frame of ENCODE is full by its header, its proper parts are short. -/
theorem decodeInvertsEncode : Obligations.DecodeInvertsEncode := by
  unfold Obligations.DecodeInvertsEncode
  intro src cls payload s hc hp
  refine ⟨frameOf cls.toNat payload, (encodeBuildsTheFrameOrIsRefused src cls payload s).1 hc hp, ?_, fun n hn => ?_⟩
  · rw [exec_decode, verdictOf_frameOf hc hp]
  · obtain ⟨h, hlen, -, hf⟩ := frameOf_header hc hp
    rw [hf] at hn ⊢
    rw [exec_decode, verdictOf_take (by simp [hlen]) hn]

/-! ### One inverted bit (R75) -/

/-- A byte replaced moves the checksum by the difference. -/
theorem cksum_set {g : List Byte} {n : Nat} {b : Byte} (hb : g[n]? = some b) (b' : Byte) :
    cksum (g.set n b') + b = cksum g + b' := by
  induction g generalizing n with
  | nil => simp at hb
  | cons a g ih =>
    cases n with
    | zero =>
      obtain rfl : a = b := by simpa using hb
      simp only [List.set_cons_zero, cksum]
      ac_rfl
    | succ n =>
      have hi := ih (n := n) (by simpa using hb)
      simp only [List.set_cons_succ, cksum, BitVec.add_assoc, hi]

theorem xor_twoPow_ne {k : Nat} (hk : k < 8) (b : Byte) : b ^^^ BitVec.twoPow 8 k ≠ b := by
  intro h
  have hbit := congrArg (fun x : Byte => x.getLsbD k) h
  simp [hk] at hbit

/-- A bit of the class field leaves the header's N. -/
theorem xor_twoPow_mod_16 {k : Nat} (h4 : 4 ≤ k) (hk : k < 8) (b : Byte) :
    (b ^^^ BitVec.twoPow 8 k).toNat % 16 = b.toNat % 16 := by
  revert b
  interval_cases k <;> decide

/-- A frame with one byte replaced, N kept, has the same length, and a checksum that is not its last byte. -/
theorem frame_set {h b b' : Byte} {p : List Byte} {n : Nat} (hb : (h :: (p ++ [cksum (h :: p)]))[n]? = some b)
    (hne : b' ≠ b) (hn : n = 0 → b'.toNat % 16 = b.toNat % 16) :
    ∃ h' p' x, (h :: (p ++ [cksum (h :: p)])).set n b' = h' :: (p' ++ [x]) ∧ h'.toNat % 16 = h.toNat % 16 ∧
      p'.length = p.length ∧ x ≠ cksum (h' :: p') := by
  have hsum {g : List Byte} {m : Nat} (hg : g[m]? = some b) : cksum g ≠ cksum (g.set m b') := by
    intro he
    have hs := cksum_set hg b'
    rw [← he] at hs
    exact hne (add_left_cancel hs).symm
  cases n with
  | zero =>
    obtain rfl : h = b := by simpa using hb
    exact ⟨b', p, _, rfl, hn rfl, rfl, hsum (g := h :: p) (m := 0) rfl⟩
  | succ m =>
    simp only [List.getElem?_cons_succ] at hb
    by_cases hm : m < p.length
    · have hp : p[m]? = some b := by simpa [List.getElem?_append_left hm] using hb
      refine ⟨h, p.set m b', _, ?_, rfl, by simp, hsum (g := h :: p) (m := m + 1) (by simpa using hp)⟩
      rw [List.set_cons_succ, List.set_append_left _ _ hm]
    · obtain rfl : m = p.length := by
        have := (List.getElem?_eq_some_iff.mp hb).1
        simp at this
        omega
      refine ⟨h, p, b', by simp, rfl, rfl, ?_⟩
      have hk : cksum (h :: p) = b := by simpa using hb
      rw [hk]
      exact hne

/-- Settles O9: the frame stays full by its header, and its last byte is not its checksum. -/
theorem oneBitErrorsOutsideTheLengthAreInvalid : Obligations.OneBitErrorsOutsideTheLengthAreInvalid := by
  unfold Obligations.OneBitErrorsOutsideTheLengthAreInvalid
  intro cls payload n k b s hc hp hb hk hn f
  obtain ⟨h, hlen, -, hf⟩ := frameOf_header hc hp
  rw [hf] at hb
  obtain ⟨h', p', x, hset, hlen', hp', hx⟩ := frame_set hb (xor_twoPow_ne hk b) fun h0 => xor_twoPow_mod_16 (hn h0) hk b
  have hf' : f = h' :: (p' ++ [x]) := by rw [← hset, ← hf]
  have hN : h'.toNat % 16 = p'.length + 1 := by omega
  constructor
  · rw [exec_decode, hf', verdictOf_full h' p' x hN, if_neg hx]
  · intro m hm
    rw [hf'] at hm ⊢
    rw [exec_decode, verdictOf_take (by simp [hN]) hm]

end Sys2Proof.Machine
end

section
/-!
PROOFS. The client's frames: SETPOINT, OBJGET and SETREQ by what they answer (44_client_frames.md R138 to R148).
-/
namespace Sys2Proof.Machine

/-! ### The bytes of a response -/

/-- The model's two bytes of a 16-bit value are the spec's quotient and remainder. -/
theorem be16_eq_bytePair (v : Half) : be16 v = bytePair v := by
  have := v.isLt
  simp only [be16, bytePair, List.cons.injEq, and_true]
  constructor <;> apply BitVec.eq_of_toNat_eq <;> simp [Nat.shiftRight_eq_div_pow]

theorem unBE16_bytePair (v : Half) :
    unBE16 (BitVec.ofNat 8 (v.toNat / 256)) (BitVec.ofNat 8 (v.toNat % 256)) = v := by
  apply BitVec.eq_of_toNat_eq
  have := v.isLt
  simp [unBE16_toNat]
  omega

theorem statusByte_eq_statusOf (en latch cc : Bool) : statusByte en latch cc = statusOf en latch cc := by
  cases en <;> cases latch <;> cases cc <;> rfl

theorem responseStatus_eq (rv : Half) (s : State) :
    responseStatus rv s = statusOf s.outEn s.otLatch (infersCc s.outEn s.otLatch s.spV rv) :=
  statusByte_eq_statusOf _ _ _

theorem powerTerm_eq (v i : Half) : powerTerm v i = v.toNat * i.toNat / 65536 := by
  simp [powerTerm, Nat.shiftRight_eq_div_pow]

/-! ### The fields of a request -/

/-- A payload of the device's form is read as its on/off byte and its two fields. -/
theorem setpointFields_of_isRequestPayload {r : Bool} {o : Byte} {v i : Half} {p : List Byte}
    (h : IsRequestPayload r o v i p) : setpointFields r p = some (o, v, i) := by
  obtain ⟨rfl, x, rfl⟩ | ⟨rfl, rfl⟩ := h <;> simp [setpointFields, bytePair, unBE16_bytePair]

/-- A payload of another length is no request (D38). -/
theorem setpointFields_of_length_ne {r : Bool} {p : List Byte} (h : p.length ≠ if r then 6 else 5) :
    setpointFields r p = none := by
  unfold setpointFields
  split
  · simp at h
  · simp at h
  · rfl

theorem exec_setpoint_of_length_ne {p : List Byte} {s : State}
    (h : p.length ≠ if s.par.setpointReqReserved then 6 else 5) : exec (.setpoint p) s = .next s := by
  simp [exec_setpoint, runSetpoint, setpointFields_of_length_ne h]

theorem boolByte_toNat_le (on : Bool) : (boolByte on).toNat ≤ 1 := by cases on <;> decide

theorem boolByte_beq_one (on : Bool) : (boolByte on == 1) = on := by cases on <;> rfl

/-- SETPOINT of a request with a legal on/off byte: applied or rejected, then answered. -/
theorem runSetpoint_of_request {o : Byte} {v i : Half} {p : List Byte} {s : State}
    (hp : IsRequestPayload s.par.setpointReqReserved o v i p) (ho : o.toNat ≤ 1) :
    runSetpoint p s = andThen (applySetpoint (o == 1) v i s) respond := by
  simp [runSetpoint, setpointFields_of_isRequestPayload hp, Nat.not_lt.mpr ho]

/-! ### Applying a request -/

theorem applySetpoint_of_excess {o : Bool} {v i : Half} {s : State} (h : s.par.maxPower < v.toNat * i.toNat / 65536) :
    applySetpoint o v i s = .next (takePowerLimit s) := by
  rw [applySetpoint, powerTerm_eq, if_pos h]

theorem applySetpoint_of_within {o : Bool} {v i : Half} {s : State} (h : v.toNat * i.toNat / 65536 ≤ s.par.maxPower) :
    applySetpoint o v i s =
      andThen (updateVoltage v s) fun a => andThen (updateCurrent i a) fun b => .next (driveEnable o b) := by
  rw [applySetpoint, powerTerm_eq, if_neg (Nat.not_lt.mpr h)]

/-- The voltage field as the request leaves it. -/
theorem updateVoltage_eq {v : Half} {c : Nat} {s : State} (h : v ≠ s.spV → percentToPwm s.par .vset v.toNat = .ok c) :
    updateVoltage v s = .next { s with
      spV := v, pwmCmpV := if v = s.spV then s.pwmCmpV else c,
      emitted := s.emitted ++ if v = s.spV then [] else [.pwmCmpV c] } := by
  by_cases hv : v = s.spV
  · simp [updateVoltage, hv]
  · rw [updateVoltage_eq_next.mpr (.inr ⟨hv, c, h hv, rfl⟩)]
    simp [hv, loadCompare, emit]

theorem updateCurrent_eq {i : Half} {c : Nat} {s : State} (h : i ≠ s.spI → percentToPwm s.par .iset i.toNat = .ok c) :
    updateCurrent i s = .next { s with
      spI := i, pwmCmpI := if i = s.spI then s.pwmCmpI else c,
      emitted := s.emitted ++ if i = s.spI then [] else [.pwmCmpI c] } := by
  by_cases hi : i = s.spI
  · simp [updateCurrent, hi]
  · rw [updateCurrent_eq_next.mpr (.inr ⟨hi, c, h hi, rfl⟩)]
    simp [hi, loadCompare, emit]

/-- The state an accepted request leaves, before its response; `cv`, `ci` are the compare values of changed fields. -/
def appliedSetpoint (on : Bool) (v i : Half) (cv ci : Nat) (s : State) : State :=
  { s with
    spV := v, spI := i, outEn := on && !s.otLatch,
    pwmCmpV := if v = s.spV then s.pwmCmpV else cv,
    pwmCmpI := if i = s.spI then s.pwmCmpI else ci,
    emitted := s.emitted ++ (if v = s.spV then [] else [.pwmCmpV cv]) ++ (if i = s.spI then [] else [.pwmCmpI ci]) ++
      [.outEn (on && !s.otLatch)] }

theorem applySetpoint_of_accepted {o : Bool} {v i : Half} {cv ci : Nat} {s : State}
    (hpow : v.toNat * i.toNat / 65536 ≤ s.par.maxPower) (hv : v ≠ s.spV → percentToPwm s.par .vset v.toNat = .ok cv)
    (hi : i ≠ s.spI → percentToPwm s.par .iset i.toNat = .ok ci) :
    applySetpoint o v i s = .next (appliedSetpoint o v i cv ci s) := by
  rw [applySetpoint_of_within hpow, updateVoltage_eq hv, andThen_next, updateCurrent_eq (by exact hi), andThen_next]
  simp [driveEnable, emit, gatedEnable_eq, appliedSetpoint]

theorem updateVoltage_of_error {v : Half} {r : Refusal} {s : State} (hv : v ≠ s.spV)
    (h : percentToPwm s.par .vset v.toNat = .error r) : updateVoltage v s = .refused r := by
  simp [updateVoltage, hv, pwmSet, setCalOfQuantity, h]

theorem updateCurrent_of_error {i : Half} {r : Refusal} {s : State} (hi : i ≠ s.spI)
    (h : percentToPwm s.par .iset i.toNat = .error r) : updateCurrent i s = .refused r := by
  simp [updateCurrent, hi, pwmSet, setCalOfQuantity, h]

/-! ### The response -/

theorem raw2pctValue_congr (i : ReadCal) (j : Channel) {s t : State} (hp : t.par = s.par) (hr : t.raw = s.raw) :
    raw2pctValue i j t = raw2pctValue i j s := by
  rw [raw2pctValue, raw2pctValue, hp, hr]

/-- The response of a state whose readings are those of `s`. -/
theorem respond_of_readbacks {s t : State} {rv ri : Half} (h : ReadbacksAre s rv ri) (hp : t.par = s.par)
    (hr : t.raw = s.raw) :
    respond t = .next { t with
      emitted := t.emitted ++ [.txBytes .slave (frameOf 1
        (statusOf t.outEn t.otLatch (infersCc t.outEn t.otLatch t.spV rv) ::
          (bytePair rv ++ bytePair ri ++ [0])))] } := by
  obtain ⟨hv, hi⟩ := h
  rw [respond, raw2pctValue_congr _ _ hp hr, hv, orRefuse_ok, raw2pctValue_congr _ _ hp hr, hi, orRefuse_ok, sendFrame,
    responseStatus_eq, be16_eq_bytePair, be16_eq_bytePair, buildFrame_eq_frameOf _ (by simp [bytePair])]
  rfl

/-- A response needs both readings; the first refused conversion refuses it. -/
theorem respond_of_error {s t : State} {r : Refusal} (hp : t.par = s.par) (hr : t.raw = s.raw)
    (h : raw2pctValue .vread .voltage s = .error r ∨
      (∃ rv, raw2pctValue .vread .voltage s = .ok rv) ∧ raw2pctValue .iread .current s = .error r) :
    respond t = .refused r := by
  rw [respond, raw2pctValue_congr _ _ hp hr, raw2pctValue_congr _ _ hp hr]
  obtain h | ⟨⟨rv, hv⟩, hi⟩ := h
  · rw [h]
    rfl
  · rw [hv, hi]
    rfl

/-- Settles O45: the request applied, and the response of the state so left. -/
theorem acceptedSetpointIsAppliedAndAnswered : Obligations.AcceptedSetpointIsAppliedAndAnswered := by
  unfold Obligations.AcceptedSetpointIsAppliedAndAnswered
  intro on v i rv ri cv ci payload s hp hpow hv hi hread en
  rw [exec_setpoint, runSetpoint_of_request hp (boolByte_toNat_le on), boolByte_beq_one,
    applySetpoint_of_accepted hpow hv hi, andThen_next,
    respond_of_readbacks (t := appliedSetpoint on v i cv ci s) hread rfl rfl]
  simp [appliedSetpoint, en]

/-- Settles O46: the rejection writes only the diagnostic, and the response is that of the state. -/
theorem excessPowerIsRejectedWholesale : Obligations.ExcessPowerIsRejectedWholesale := by
  unfold Obligations.ExcessPowerIsRejectedWholesale
  intro on v i rv ri payload s hp hpow hread
  rw [exec_setpoint, runSetpoint_of_request hp (boolByte_toNat_le on), applySetpoint_of_excess hpow, andThen_next,
    respond_of_readbacks (t := takePowerLimit s) hread rfl rfl]
  simp [takePowerLimit, emit]

/-- A compare value that exists where the field changed is one number for both cases. -/
theorem exists_compare {p : Prop} {e : Except Refusal Nat} (h : p → ∃ c, e = .ok c) : ∃ c, p → e = .ok c := by
  by_cases hp : p
  · obtain ⟨c, hc⟩ := h hp
    exact ⟨c, fun _ => hc⟩
  · exact ⟨0, fun h => absurd h hp⟩

/-- A request with a meaning is applied or rejected without touching the parameters or the readings. -/
theorem applySetpoint_of_requestDefined (o : Bool) {v i : Half} {s : State} (h : RequestDefined s v i) :
    ∃ u, applySetpoint o v i s = .next u ∧ u.par = s.par ∧ u.raw = s.raw := by
  by_cases hpow : s.par.maxPower < v.toNat * i.toNat / 65536
  · exact ⟨_, applySetpoint_of_excess hpow, rfl, rfl⟩
  · obtain ⟨hv, hi⟩ := h.resolve_left hpow
    obtain ⟨cv, hcv⟩ := exists_compare hv
    obtain ⟨ci, hci⟩ := exists_compare hi
    exact ⟨_, applySetpoint_of_accepted (Nat.not_lt.mp hpow) hcv hci, rfl, rfl⟩

/-- Settles O47: the tests in SETPOINT's order, then the conversions in the order they run. -/
theorem setpointWithoutAMeaning : Obligations.SetpointWithoutAMeaning := by
  unfold Obligations.SetpointWithoutAMeaning
  intro o v i payload s
  refine ⟨exec_setpoint_of_length_ne, fun hp ho => ?_, fun hp ho r => ⟨fun hpow hv he => ?_,
    fun hpow hv hi he => ?_, fun hd he => ?_, fun hd hv he => ?_⟩⟩
  · simp [exec_setpoint, runSetpoint, setpointFields_of_isRequestPayload hp, ho]
  · rw [exec_setpoint, runSetpoint_of_request hp ho, applySetpoint_of_within hpow, updateVoltage_of_error hv he]
    rfl
  · obtain ⟨cv, hcv⟩ := exists_compare hv
    rw [exec_setpoint, runSetpoint_of_request hp ho, applySetpoint_of_within hpow, updateVoltage_eq hcv, andThen_next,
      updateCurrent_of_error (by exact hi) (by exact he)]
    rfl
  · obtain ⟨u, hu, hpar, hraw⟩ := applySetpoint_of_requestDefined (o == 1) hd
    rw [exec_setpoint, runSetpoint_of_request hp ho, hu, andThen_next, respond_of_error hpar hraw (.inl he)]
  · obtain ⟨u, hu, hpar, hraw⟩ := applySetpoint_of_requestDefined (o == 1) hd
    rw [exec_setpoint, runSetpoint_of_request hp ho, hu, andThen_next, respond_of_error hpar hraw (.inr ⟨hv, he⟩)]

/-! ### Objects -/

/-- The payload of an Object response by the four ids. -/
theorem objectPayload_eq (id : Byte) (s : State) :
    objectPayload id s =
      if id = 3 then id :: bytePair s.spOvp
      else if id = 4 then id :: bytePair s.spOcp
      else if id = 9 then id :: bytePair s.spV
      else if id = 10 then id :: bytePair s.spI
      else [id] := by
  unfold objectPayload objectValue
  split_ifs <;> simp [be16_eq_bytePair]

theorem objectPayload_length (id : Byte) (s : State) : (objectPayload id s).length ≤ 14 := by
  unfold objectPayload
  split <;> simp

theorem runObjget_singleton (id : Byte) (s : State) :
    runObjget [id] s = { s with emitted := s.emitted ++ [.txBytes .slave (frameOf 8 (objectPayload id s))] } := by
  rw [runObjget, sendFrame, buildFrame_eq_frameOf _ (objectPayload_length id s)]
  rfl

theorem runObjget_of_length_ne {p : List Byte} {s : State} (h : p.length ≠ 1) : runObjget p s = s := by
  obtain ⟨id, rfl, -⟩ | e := runObjget_cases p s
  · exact absurd rfl h
  · exact e

/-- Settles O48: one byte is an id, and its answer is the Object response. -/
theorem objectGetAnswersEveryId : Obligations.ObjectGetAnswersEveryId := by
  unfold Obligations.ObjectGetAnswersEveryId
  intro payload s
  refine ⟨fun hl => ?_, ?_⟩
  · rw [exec_objget, runObjget_of_length_ne hl]
  · rintro id rfl
    rw [exec_objget, runObjget_singleton, objectPayload_eq]

end Sys2Proof.Machine
end

section
/-!
PROOFS. The receivers: one byte, a whole frame, and its dispatch (40_codec_ops.md R72 to R77, 44_client_frames.md R136).
-/
namespace Sys2Proof.Machine

/-! ### One byte -/

theorem emit_setCodec (e : Emission) (d : End) (c : Codec) (s : State) :
    emit e (setCodec d c s) = { setCodec d c s with emitted := s.emitted ++ [e] } := by
  cases d <;> rfl

/-- Only a receiver and the emissions differ, so putting the receiver back leaves the emission. -/
theorem setCodec_codecAt_emit (e : Emission) (d : End) (c : Codec) (s : State) :
    setCodec d (codecAt d s) (emit e (setCodec d c s)) = { s with emitted := (emit e (setCodec d c s)).emitted } := by
  cases d <;> rfl

theorem codecAt_emit (e : Emission) (d : End) (s : State) : codecAt d (emit e s) = codecAt d s := by
  cases d <;> rfl

/-- R136, D29: the dispatch by end and class. -/
theorem dispatch_eq (d : End) (c : BitVec 4) (p : List Byte) (s : State) :
    dispatch d c p s =
      if d = .slave ∧ c = 1 then exec (.setpoint p) s
      else if d = .slave ∧ c = 8 then exec (.objget p) s
      else .next s := by
  cases d <;> simp [dispatch, exec_setpoint, exec_objget]

theorem pushByte_rxbuf_toList (b : Byte) (c : Codec) : (pushByte b c).rxbuf.toList = c.rxbuf.toList.set c.rxlen b := by
  simp [pushByte, ← Vector.toList_toArray, Vector.toArray_setIfInBounds, Array.toList_setIfInBounds]

/-- Settles O10: the three verdicts of the byte string accumulated with the byte. -/
theorem receivedByteFollowsTheVerdict : Obligations.ReceivedByteFollowsTheVerdict := by
  unfold Obligations.ReceivedByteFollowsTheVerdict
  intro dst b s hlen
  refine ⟨pushByte b (codecAt dst s), pushByte_rxbuf_toList b _, ?_⟩
  have hacc : accumulated (pushByte b (codecAt dst s)) =
      (codecAt dst s).rxbuf.toList.take (codecAt dst s).rxlen ++ [b] := accumulated_pushByte b _ (by omega)
  rw [exec_rxbyte, ← hacc]
  obtain ⟨hv, h⟩ | ⟨hv, h⟩ | ⟨cls, p, hv, h⟩ := receiveByte_cases dst b s
  · rw [h, hv]
    rfl
  · rw [h, hv, emit_setCodec]
    rfl
  · rw [h, hv, dispatch_eq, emit_setCodec]
    rfl

/-- A first byte is a header, or Invalid at once when it announces no byte (D4). -/
theorem receiveByte_first (d : End) (b : Byte) (s : State) (hr : (codecAt d s).rxlen = 0) :
    receiveByte d b s =
      if b.toNat % 16 = 0 then
        .next (emit (.frameOut d .invalid) (setCodec d (discardBuffer (pushByte b (codecAt d s))) s))
      else .next (setCodec d (pushByte b (codecAt d s)) s) := by
  have hacc : accumulated (pushByte b (codecAt d s)) = [b] := by
    rw [accumulated_pushByte b _ (by omega), accumulated_of_empty _ hr, List.nil_append]
  by_cases hb : b.toNat % 16 = 0
  · have hv : verdictOf [b] = .invalid := by rw [verdictOf_cons, if_pos hb]
    simp only [receiveByte, hacc, hv, if_pos hb]
  · have hv : verdictOf [b] = .incomplete := verdictOf_short b [] hb (by simp; omega)
    simp only [receiveByte, hacc, hv, if_neg hb]

theorem pushByte_rxbuf_zero {b : Byte} {c : Codec} (h : c.rxlen = 0) : (pushByte b c).rxbuf[0] = b := by
  simp [pushByte, h]

/-- Settles O11: the first byte's two cases. -/
theorem firstByteIsAHeader : Obligations.FirstByteIsAHeader := by
  unfold Obligations.FirstByteIsAHeader
  intro dst b s hr
  rw [exec_rxbyte, receiveByte_first dst b s hr]
  by_cases hb : b.toNat % 16 = 0
  · simp only [if_pos hb]
    refine ⟨_, rfl, ?_, ?_, ?_, setCodec_codecAt_emit _ dst _ s⟩
    · rw [codecAt_emit, codecAt_setCodec, discardBuffer_rxlen]
    · simp only [codecAt_emit, codecAt_setCodec, discardBuffer_rxbuf]
      exact pushByte_rxbuf_zero hr
    · simp
  · simp only [if_neg hb]
    refine ⟨_, rfl, ?_, ?_, ?_, ?_⟩
    · rw [codecAt_setCodec, pushByte_rxlen, hr]
    · simp only [codecAt_setCodec]
      exact pushByte_rxbuf_zero hr
    · simp
    · cases dst <;> rfl

/-! ### A whole frame -/

theorem wireBytes_eq_cons {i : Instr} {d : End} {bs : List Byte} (h : wireBytes i = some (d, bs)) :
    ∃ b body, bs = b :: body := by
  cases i <;> simp only [wireBytes, Option.some.injEq, Prod.mk.injEq, reduceCtorEq] at h <;> exact ⟨_, _, h.2.symm⟩

/-- A frame row with at least one byte after its header, at an empty receiver: by its checksum dispatched or Invalid. -/
theorem exec_of_frame {i : Instr} {d : End} {h : Byte} {body : List Byte} {s : State} (hw : i.wellFormed = true)
    (hb : wireBytes i = some (d, h :: body)) (hr : (codecAt d s).rxlen = 0) (hne : body ≠ []) :
    ∃ c : Codec, c.rxlen = 0 ∧ exec i s =
      if body.getLast? = some (byteSum (h :: body.dropLast)) then
        dispatch d (headerClass h) body.dropLast
          (emit (.frameOut d (.complete (headerClass h) body.dropLast)) (setCodec d c s))
      else .next (emit (.frameOut d .invalid) (setCodec d c s)) := by
  have hl := wireBytes_body_length i d h body hw hb
  obtain rfl | ⟨r, x, rfl⟩ := List.eq_nil_or_concat body
  · exact absurd rfl hne
  · rw [List.concat_eq_append] at hl ⊢
    obtain ⟨c, hc, he⟩ := receiveBytes_frame d h r x s (by simpa using hl.symm) hr
    refine ⟨c, hc, ?_⟩
    rw [exec_of_wireBytes i d _ s hb, List.concat_eq_append, he, cksum_eq_byteSum]
    simp

/-- Settles O14: Invalid at the header when it announces nothing, else by the checksum. -/
theorem badFrameIsInvalid : Obligations.BadFrameIsInvalid := by
  unfold Obligations.BadFrameIsInvalid
  intro i dst bytes s hw hb hr hbad
  obtain ⟨h, body, rfl⟩ := wireBytes_eq_cons hb
  have invalid (c : Codec) (hc : c.rxlen = 0)
      (he : exec i s = .next (emit (.frameOut dst .invalid) (setCodec dst c s))) :
      ∃ t : State, exec i s = .next t ∧ (codecAt dst t).rxlen = 0 ∧
        t.emitted = s.emitted ++ [.frameOut dst .invalid] ∧
        setCodec dst (codecAt dst s) t = { s with emitted := t.emitted } := by
    refine ⟨_, he, ?_, ?_, setCodec_codecAt_emit _ dst c s⟩
    · rw [codecAt_emit, codecAt_setCodec, hc]
    · simp
  by_cases hne : body = []
  · subst hne
    have hN : h.toNat % 16 = 0 := (wireBytes_body_length i dst h [] hw hb).symm
    refine invalid (discardBuffer (pushByte h (codecAt dst s))) rfl ?_
    rw [exec_of_wireBytes i dst _ s hb, receiveBytes, receiveByte_first dst h s hr, if_pos hN]
    rfl
  · obtain ⟨c, hc, he⟩ := exec_of_frame hw hb hr hne
    refine invalid c hc (he.trans (if_neg ?_))
    have hbad' := hbad.resolve_left (by simpa using hne)
    rwa [List.getLast?_cons_of_ne_nil hne, List.dropLast_cons_of_ne_nil hne] at hbad'

theorem dispatch_of_not_dispatched {d : End} {h : Byte} (hd : d = .slave → h.toNat / 16 ≠ 1 ∧ h.toNat / 16 ≠ 8)
    (p : List Byte) (s : State) : dispatch d (headerClass h) p s = .next s := by
  rw [dispatch_eq, if_neg, if_neg]
  · rintro ⟨hs, hc⟩
    exact (hd hs).2 (by rw [← headerClass_toNat, hc]; rfl)
  · rintro ⟨hs, hc⟩
    exact (hd hs).1 (by rw [← headerClass_toNat, hc]; rfl)

/-- Settles O15: Complete, and nothing dispatched. -/
theorem goodFrameIsComplete : Obligations.GoodFrameIsComplete := by
  unfold Obligations.GoodFrameIsComplete
  intro i dst h body s hw hb hr hne hsum hcls
  obtain ⟨c, hc, he⟩ := exec_of_frame hw hb hr hne
  rw [if_pos hsum, dispatch_of_not_dispatched hcls] at he
  refine ⟨_, he, ?_, ?_, setCodec_codecAt_emit _ dst c s⟩
  · rw [codecAt_emit, codecAt_setCodec, hc]
  · simp [headerClass_eq_ofNat]

/-- Settles O16: Complete, and dispatched by its class. -/
theorem slaveFrameIsDispatched : Obligations.SlaveFrameIsDispatched := by
  unfold Obligations.SlaveFrameIsDispatched
  intro i h body s hw hb hr hne hsum
  obtain ⟨c, hc, he⟩ := exec_of_frame hw hb hr hne
  rw [if_pos hsum, headerClass_eq_ofNat] at he
  refine ⟨c, hc, fun h1 => ?_, fun h8 => ?_⟩
  · rw [he, h1]
    rfl
  · rw [he, h8]
    rfl

/-- Settles O17: RXIDLE leaves an empty receiver, and a frame sent is complete by its own header and checksum. -/
theorem idleRestoresFraming : Obligations.IdleRestoresFraming := by
  unfold Obligations.IdleRestoresFraming
  intro dst cls payload s hp
  have hN : (headerByte cls (BitVec.ofNat 4 (payload.length + 1))).toNat % 16 = payload.length + 1 := by
    rw [← headerLen_toNat, headerLen_headerByte, BitVec.toNat_ofNat]
    omega
  have htail : (frameOf cls.toNat payload).tail =
      payload ++ [cksum (headerByte cls (BitVec.ofNat 4 (payload.length + 1)) :: payload)] := by
    rw [← buildFrame_eq_frameOf cls hp]
    rfl
  obtain ⟨c, hc, he⟩ := receiveBytes_frame dst _ payload _ (setCodec dst (discardBuffer (codecAt dst s)) s) hN (by simp)
  rw [if_pos rfl, headerClass_headerByte, setCodec_setCodec, dispatch_eq, emit_setCodec] at he
  refine ⟨c, hc, ?_⟩
  rw [exec_rxidle, andThen_next, htail]
  exact he

/-! ### Requests that arrive as frames -/

theorem frameOf_object_singleton (id : Byte) : frameOf 8 [id] = [0x82, id, byteSum [0x82, id]] := by
  rw [← buildFrame_objectRequest]
  exact (buildFrame_eq_frameOf 8 (by simp)).symm

/-- Settles O19: the frame is dispatched to OBJGET, and the answer to an unknown id is the request. -/
theorem objectRequestFrameIsAnswered : Obligations.ObjectRequestFrameIsAnswered := by
  unfold Obligations.ObjectRequestFrameIsAnswered
  intro id s hr
  obtain ⟨c, hc, -, h8⟩ := slaveFrameIsDispatched (.objgetReq id (byteSum [0x82, id])) 0x82 [id, byteSum [0x82, id]] s
    rfl rfl hr (by simp) rfl
  refine ⟨_, (h8 rfl).trans (congrArg Host.Outcome.next (runObjget_singleton id _)), hc, ?_⟩
  rw [objectPayload_eq]
  split_ifs <;> simp [frameOf_object_singleton]

/-- A Setpoint request frame of either length, with its checksum, runs SETPOINT on its payload. -/
theorem exec_of_setpointFrame {i : Instr} {h : Byte} {p : List Byte} {s : State} (hw : i.wellFormed = true)
    (hb : wireBytes i = some (.slave, h :: (p ++ [byteSum (h :: p)]))) (h1 : h.toNat / 16 = 1) (hr : s.rxS.rxlen = 0) :
    ∃ c : Codec, c.rxlen = 0 ∧ exec i s =
      exec (.setpoint p) { s with rxS := c, emitted := s.emitted ++ [.frameOut .slave (.complete 1 p)] } := by
  obtain ⟨c, hc, hset, -⟩ := slaveFrameIsDispatched i h _ s hw hb hr (by simp) (by simp)
  exact ⟨c, hc, by simpa using hset h1⟩

/-- A request with a meaning has the same effect behind an emission and with another receiver. -/
theorem exec_setpoint_behind {on : Bool} {v i rv ri : Half} {p : List Byte} {s : State}
    (hp : IsRequestPayload s.par.setpointReqReserved (boolByte on) v i p) (hd : RequestDefined s v i)
    (hread : ReadbacksAre s rv ri) (c : Codec) (e : Emission) :
    ∃ u es, exec (.setpoint p) s = .next u ∧ u.emitted = s.emitted ++ es ∧
      exec (.setpoint p) { s with rxS := c, emitted := s.emitted ++ [e] } =
        .next { u with rxS := c, emitted := s.emitted ++ [e] ++ es } := by
  by_cases hpow : s.par.maxPower < v.toNat * i.toNat / 65536
  · have hx := excessPowerIsRejectedWholesale on v i rv ri p
    exact ⟨_, _, hx s hp hpow hread, rfl, hx { s with rxS := c, emitted := s.emitted ++ [e] } hp hpow hread⟩
  · obtain ⟨hv, hi⟩ := hd.resolve_left hpow
    obtain ⟨cv, hcv⟩ := exists_compare hv
    obtain ⟨ci, hci⟩ := exists_compare hi
    have ha := acceptedSetpointIsAppliedAndAnswered on v i rv ri cv ci p
    have hpow := Nat.not_lt.mp hpow
    refine ⟨_, _, ha s hp hpow hcv hci hread, by simp only [List.append_assoc]; rfl, ?_⟩
    rw [ha { s with rxS := c, emitted := s.emitted ++ [e] } hp hpow hcv hci hread]
    simp

/-- A frame in the length the device expects: SETPOINT's effect behind the verdict. -/
theorem setpointFrame_runs {row : Instr} {h : Byte} {on : Bool} {v i : Half} {p : List Byte} {s : State}
    (hw : row.wellFormed = true) (hb : wireBytes row = some (.slave, h :: (p ++ [byteSum (h :: p)])))
    (h1 : h.toNat / 16 = 1) (hr : s.rxS.rxlen = 0)
    (hp : IsRequestPayload s.par.setpointReqReserved (boolByte on) v i p) (hd : RequestDefined s v i)
    (hread : ∃ rv ri, ReadbacksAre s rv ri) :
    ∃ t u : State, exec (.setpoint p) s = .next u ∧ exec row s = .next t ∧ t.rxS.rxlen = 0 ∧
      t = { u with rxS := t.rxS, emitted := t.emitted } ∧
      t.emitted = s.emitted ++ [.frameOut .slave (.complete 1 p)] ++ u.emitted.drop s.emitted.length := by
  obtain ⟨rv, ri, hread⟩ := hread
  obtain ⟨c, hc, he⟩ := exec_of_setpointFrame hw hb h1 hr
  obtain ⟨u, es, hu, hes, ht⟩ := exec_setpoint_behind hp hd hread c (.frameOut .slave (.complete 1 p))
  exact ⟨_, u, hu, he.trans ht, hc, rfl, by rw [hes, List.drop_left]⟩

/-- A frame in the other length: its verdict alone (D38). -/
theorem setpointFrame_ignored {row : Instr} {h : Byte} {p : List Byte} {s : State} (hw : row.wellFormed = true)
    (hb : wireBytes row = some (.slave, h :: (p ++ [byteSum (h :: p)]))) (h1 : h.toNat / 16 = 1) (hr : s.rxS.rxlen = 0)
    (hp : p.length ≠ if s.par.setpointReqReserved then 6 else 5) :
    ∃ t : State, exec row s = .next t ∧ t.rxS.rxlen = 0 ∧
      { t with rxS := s.rxS } = { s with emitted := s.emitted ++ [.frameOut .slave (.complete 1 p)] } := by
  obtain ⟨c, hc, he⟩ := exec_of_setpointFrame hw hb h1 hr
  exact ⟨_, he.trans (exec_setpoint_of_length_ne (by exact hp)), hc, rfl⟩

/-- Settles O18: the two rows on the two devices. -/
theorem setpointFramesRunSetpoint : Obligations.SetpointFramesRunSetpoint := by
  unfold Obligations.SetpointFramesRunSetpoint
  intro on v i s hr short long
  have hlong : wireBytes (.setpointReq on v i (byteSum (0x17 :: long))) =
      some (.slave, 0x17 :: (long ++ [byteSum (0x17 :: long)])) := by
    simp [wireBytes, be16_eq_bytePair, short, long]
  have hshort : wireBytes (.setpointReqAlt on v i (byteSum (0x16 :: short))) =
      some (.slave, 0x16 :: (short ++ [byteSum (0x16 :: short)])) := by
    simp [wireBytes, be16_eq_bytePair, short]
  refine ⟨fun hres hd hread => ?_, fun hres hd hread => ?_, fun hres => ?_, fun hres => ?_⟩
  · exact setpointFrame_runs rfl hlong rfl hr (.inl ⟨hres, 0, rfl⟩) hd hread
  · exact setpointFrame_runs rfl hshort rfl hr (.inr ⟨hres, rfl⟩) hd hread
  · exact setpointFrame_ignored rfl hshort rfl hr (by simp [hres, short, bytePair])
  · exact setpointFrame_ignored rfl hlong rfl hr (by simp [hres, short, long, bytePair])

end Sys2Proof.Machine
end

section
/-!
PROOFS. A conversion inside a burst beside a received byte: either order of the two (20_memory.md R38).
-/
namespace Sys2Proof.Machine

/-- An operation that a write before it and behind it leaves alike. -/
def CommutesWith (f : State → State) (op : State → Out) : Prop := ∀ s, op (f s) = andThen (op s) fun t => .next (f t)

theorem CommutesWith.andThen {f : State → State} {op op' : State → Out} (h : CommutesWith f op)
    (h' : CommutesWith f op') : CommutesWith f fun s => andThen (op s) op' := by
  intro s
  simp only [h s, andThen_assoc, andThen_next]
  congr 1
  funext t
  exact h' t

section Conversion

variable (code : BitVec 19)

theorem pwmSet_commutes (k : Quantity) (x : Nat) : CommutesWith (addSample code) (pwmSet k x) := by
  intro s
  have hpar : (addSample code s).par = s.par := rfl
  rw [pwmSet, pwmSet, hpar]
  cases percentToPwm s.par (setCalOfQuantity k) x with
  | error => rfl
  | ok => cases k <;> rfl

theorem updateVoltage_commutes (v : Half) : CommutesWith (addSample code) (updateVoltage v) := by
  intro s
  have hsp : (addSample code s).spV = s.spV := rfl
  rw [updateVoltage, updateVoltage, hsp]
  split
  · rfl
  · exact pwmSet_commutes code .voltage v.toNat { s with spV := v }

theorem updateCurrent_commutes (i : Half) : CommutesWith (addSample code) (updateCurrent i) := by
  intro s
  have hsp : (addSample code s).spI = s.spI := rfl
  rw [updateCurrent, updateCurrent, hsp]
  split
  · rfl
  · exact pwmSet_commutes code .current i.toNat { s with spI := i }

theorem applySetpoint_commutes (o : Bool) (v i : Half) : CommutesWith (addSample code) (applySetpoint o v i) := by
  intro s
  have hpar : (addSample code s).par = s.par := rfl
  rw [applySetpoint, applySetpoint, hpar]
  split
  · rfl
  · exact (updateVoltage_commutes code v).andThen ((updateCurrent_commutes code i).andThen fun _ => rfl) s

theorem respond_commutes : CommutesWith (addSample code) respond := by
  intro s
  have hval (i : ReadCal) (j : Channel) : raw2pctValue i j (addSample code s) = raw2pctValue i j s := rfl
  rw [respond, respond, hval, hval]
  cases raw2pctValue .vread .voltage s with
  | error => rfl
  | ok rv =>
    cases raw2pctValue .iread .current s with
    | error => rfl
    | ok ri => rfl

theorem runSetpoint_commutes (p : List Byte) : CommutesWith (addSample code) (runSetpoint p) := by
  intro s
  have hpar : (addSample code s).par = s.par := rfl
  rw [runSetpoint, runSetpoint, hpar]
  split
  · rfl
  · split
    · rfl
    · exact (applySetpoint_commutes code _ _ _).andThen (respond_commutes code) s

theorem dispatch_commutes (d : End) (c : BitVec 4) (p : List Byte) :
    CommutesWith (addSample code) (dispatch d c p) := by
  intro s
  have hobj : runObjget p (addSample code s) = addSample code (runObjget p s) := by
    unfold runObjget
    split <;> rfl
  rw [dispatch_eq, dispatch_eq]
  split
  · exact runSetpoint_commutes code p s
  · split
    · exact congrArg Host.Outcome.next hobj
    · rfl

theorem receiveByte_commutes (d : End) (b : Byte) : CommutesWith (addSample code) (receiveByte d b) := by
  intro s
  have hcodec : codecAt d (addSample code s) = codecAt d s := by cases d <;> rfl
  have hset (c : Codec) : setCodec d c (addSample code s) = addSample code (setCodec d c s) := by cases d <;> rfl
  simp only [receiveByte, hcodec, hset]
  split
  · rfl
  · rfl
  · exact dispatch_commutes code d _ _ (emit _ (setCodec d _ s))

end Conversion

/-- Settles O56: the conversion is one sample added, before the byte and behind it. -/
theorem conversionCommutesWithReceivedByte : Obligations.ConversionCommutesWithReceivedByte := by
  unfold Obligations.ConversionCommutesWithReceivedByte
  intro dst b code s hc hn
  have conversion {u : State} (hpar : u.par = s.par) (hcnt : u.accCnt = s.accCnt) :
      exec (.adcevt true code) u = .next (addSample code u) := by
    rw [exec_adcevt, execAdcevt_of_done (hpar ▸ hc), accumulate_of_ne code u (hcnt ▸ hn)]
  rw [conversion rfl rfl, andThen_next, exec_rxbyte, exec_rxbyte, receiveByte_commutes code dst b s]
  cases h : receiveByte dst b s with
  | fault => rfl
  | refused => rfl
  | next t =>
    obtain ⟨hpar, -, -, -, -, -, hadc, -⟩ := eachRegisterHasItsWriter (.rxbyte dst b) s t h
    obtain ⟨-, -, hcnt, -⟩ := hadc nofun
    exact conversion hpar hcnt

end Sys2Proof.Machine
end

section
/-!
PROOFS. The unit converter: profiles (41_unit_converter.md R86), display and percent (R87 to R91), gain and offset (R92,
R93), and the requests that use them.
-/
namespace Sys2Proof.Machine

/-! ### Profiles -/

/-- A signed numerator above 0 is its unsigned value. -/
theorem toInt_toNat_of_pos {x : Word} (h : 0 < x.toInt) : x.toInt.toNat = x.toNat := by
  have := x.isLt
  rw [BitVec.toInt_eq_toNat_cond] at h ⊢
  split at h <;> split <;> omega

/-- The largest number of decimal places that fits (D11). -/
theorem decimalPlaces_eq_some {num den d : Nat} (hd : d ≤ 3) (hfit : num * 10 ^ d ≤ 9999 * den)
    (hmax : d = 3 ∨ 9999 * den < num * 10 ^ (d + 1)) : decimalPlaces num den = some (BitVec.ofNat 2 d) := by
  unfold decimalPlaces dispMax
  interval_cases d
  · rw [if_neg (by omega), if_neg (by omega), if_neg (by omega), if_pos (by omega)]
    rfl
  · rw [if_neg (by omega), if_neg (by omega), if_pos (by omega)]
    rfl
  · rw [if_neg (by omega), if_pos (by omega)]
    rfl
  · rw [if_pos (by omega)]
    rfl

theorem decimalPlaces_eq_none {num den : Nat} (h : 9999 * den < num) : decimalPlaces num den = none := by
  unfold decimalPlaces dispMax
  rw [if_neg (by omega), if_neg (by omega), if_neg (by omega), if_neg (by omega)]

/-- MKPROFILE's value where the places are known: the profile of an integer full scale, or refused. -/
theorem deriveProfile_eq {num : Int} {den d : Nat} (hnum : 0 < num) (hd : d ≤ 3)
    (hfit : num.toNat * 10 ^ d ≤ 9999 * den) (hmax : d = 3 ∨ 9999 * den < num.toNat * 10 ^ (d + 1)) :
    deriveProfile num den =
      if den ∣ num.toNat * 10 ^ d then .ok (profileOf (BitVec.ofNat 2 d) (num.toNat * 10 ^ d / den))
      else .error .nominalRange := by
  have hdp : (BitVec.ofNat 2 d).toNat = d := by rw [BitVec.toNat_ofNat]; omega
  simp [deriveProfile, Int.not_le.mpr hnum, decimalPlaces_eq_some hd hfit hmax, hdp, Nat.dvd_iff_mod_eq_zero]

/-- Round half up is the exact quotient to within a half. -/
theorem rhuDiv_bounds {a b : Nat} (hb : 0 < b) :
    2 * (b * rhuDiv a b) ≤ 2 * a + b ∧ 2 * a < 2 * (b * rhuDiv a b) + b := by
  have hle := Nat.mul_div_le (2 * a + b) (2 * b)
  have hlt := Nat.lt_mul_div_succ (2 * a + b) (show 0 < 2 * b by omega)
  rw [Nat.mul_succ, Nat.mul_assoc] at hlt
  rw [Nat.mul_assoc] at hle
  rw [rhuDiv]
  omega

/-- Round half up is the floor of the exact quotient and a half. -/
theorem rhuDiv_eq_floor {a b : Nat} (hb : 0 < b) : rhuDiv a b = ⌊(a : ℚ) / b + 1 / 2⌋₊ := by
  have hb' : (b : ℚ) ≠ 0 := by positivity
  have hq : (a : ℚ) / b + 1 / 2 = ((2 * a + b : Nat) : ℚ) / ((2 * b : Nat) : ℚ) := by
    push_cast
    field_simp
  rw [hq, Nat.floor_div_eq_div]
  rfl

theorem profileOf_rbmul_toNat {dp : BitVec 2} {ns : Nat} (h : ns ≤ 9999) :
    (profileOf dp ns).rbmul.toNat = rhuDiv (65536 * ns) 25600 := by
  simp [profileOf, pctFull, rhuDiv]
  omega

theorem profileOf_spmul_toNat {dp : BitVec 2} {ns : Nat} (h : 1 ≤ ns) :
    (profileOf dp ns).spmul.toNat = rhuDiv (65536 * 25600) ns := by
  have hle : rhuDiv (65536 * 25600) ns ≤ 65536 * 25600 + 1 := by
    rw [rhuDiv]
    exact Nat.div_le_of_le_mul (by nlinarith)
  exact (BitVec.toNat_ofNat _ _).trans (Nat.mod_eq_of_lt (Nat.lt_of_le_of_lt hle (by omega)))

theorem powerPlaces_of_not_written {v i : Profile} {old : BitVec 3} (h : v.written = false ∨ i.written = false) :
    powerPlaces v i old = old := by
  obtain ⟨hv, hi, -⟩ | ⟨-, h⟩ := powerPlaces_cases v i old
  · simp [hv, hi] at h
  · exact h

/-- Settles O20: MKPROFILE writes the derived profile, whose registers are read off one by one. -/
theorem profileIsDerivedFromTheRating : Obligations.ProfileIsDerivedFromTheRating := by
  unfold Obligations.ProfileIsDerivedFromTheRating
  intro k num den d ns s hden hnum hd hns hle hmax
  have hden' : 0 < den.toNat := by
    have : den.toNat ≠ 0 := fun h => hden (BitVec.eq_of_toNat_eq h)
    omega
  have hnum' := toInt_toNat_of_pos hnum
  have hpos : 0 < num.toNat * 10 ^ d := Nat.mul_pos (by omega) (by positivity)
  have hns1 : 1 ≤ ns := by
    rcases Nat.eq_zero_or_pos ns with rfl | h <;> omega
  have hp : deriveProfile num.toInt den.toNat = .ok (profileOf (BitVec.ofNat 2 d) ns) := by
    rw [deriveProfile_eq hnum hd (by rw [hnum', hns]; exact Nat.mul_le_mul_right _ hle) (by rwa [hnum']), hnum', hns,
      if_pos (Dvd.intro_left ns rfl), Nat.mul_div_cancel _ hden']
  have hat : profileAt k (writeProfile k (profileOf (BitVec.ofNat 2 d) ns) s) = profileOf (BitVec.ofNat 2 d) ns := by
    cases k <;> rfl
  rw [exec_mkprofile, hp, orRefuse_ok]
  refine ⟨_, rfl, ?_⟩
  rw [hat]
  refine ⟨rfl, ?_, profileOf_maxdisp_toNat hle, ?_, ?_, ?_, powerPlaces_of_written, ?_, ?_⟩
  · rw [profileOf, BitVec.toNat_ofNat]
    omega
  · rw [profileOf_rbmul_toNat hle, rhuDiv_eq_floor (by omega)]
    norm_num
  · rw [profileOf_spmul_toNat hns1, rhuDiv_eq_floor (by omega)]
    norm_num
  · intro q hq
    exact profileAt_setProfile_of_ne s hq _
  · intro hw
    exact (powerPlaces_of_not_written hw).trans (setProfile_dpP s k _)
  · cases k <;> rfl

/-- Settles O21: the three ways MKPROFILE's value is refused. -/
theorem profileOfAnUnfitRatingIsRefused : Obligations.ProfileOfAnUnfitRatingIsRefused := by
  unfold Obligations.ProfileOfAnUnfitRatingIsRefused
  intro k num den s _ h
  have refused : deriveProfile num.toInt den.toNat = .error .nominalRange := by
    by_cases hnum : num.toInt ≤ 0
    · exact if_pos hnum
    · have hpos := Int.not_le.mp hnum
      have hnum' := toInt_toNat_of_pos hpos
      obtain habove | ⟨d, hd, hfit, hmax, hdvd⟩ := h.resolve_left hnum
      · simp [deriveProfile, hnum, decimalPlaces_eq_none (num := num.toInt.toNat) (den := den.toNat) (by omega)]
      · rw [deriveProfile_eq hpos hd (by rwa [hnum']) (by rwa [hnum']), hnum', if_neg hdvd]
  rw [exec_mkprofile, refused, orRefuse_error]

/-! ### Legal profiles (R14, R87, R88) -/

/-- Both multipliers of a legal profile by its full scale. -/
theorem multipliers_of_profileOk {p : Profile} (h : ProfileOk p) :
    p.rbmul.toNat = rhuDiv (65536 * p.maxdisp.toNat) 25600 ∧
    p.spmul.toNat = rhuDiv (65536 * 25600) p.maxdisp.toNat := by
  obtain ⟨h1, h2, he⟩ := h
  constructor
  · rw [he, profileOf_rbmul_toNat h2, profileOf_maxdisp_toNat h2]
  · rw [he, profileOf_spmul_toNat h1, profileOf_maxdisp_toNat h2]

theorem rbmul_bounds {p : Profile} (h : ProfileOk p) :
    51200 * p.rbmul.toNat ≤ 131072 * p.maxdisp.toNat + 25600 ∧
    131072 * p.maxdisp.toNat < 51200 * p.rbmul.toNat + 25600 := by
  rw [(multipliers_of_profileOk h).1, rhuDiv]
  omega

theorem spmul_bounds {p : Profile} (h : ProfileOk p) :
    2 * (p.maxdisp.toNat * p.spmul.toNat) ≤ 3355443200 + p.maxdisp.toNat ∧
    3355443200 < 2 * (p.maxdisp.toNat * p.spmul.toNat) + p.maxdisp.toNat := by
  have h1 := h.1
  obtain ⟨hle, hlt⟩ := rhuDiv_bounds (a := 65536 * 25600) h1
  rw [(multipliers_of_profileOk h).2]
  omega

theorem spmul_range {p : Profile} (h : ProfileOk p) : 167789 ≤ p.spmul.toNat ∧ p.spmul.toNat ≤ 1677721600 := by
  obtain ⟨hle, hlt⟩ := spmul_bounds h
  obtain ⟨h1, h2, -⟩ := h
  constructor
  · have : p.maxdisp.toNat * (2 * p.spmul.toNat + 1) ≤ 9999 * (2 * p.spmul.toNat + 1) := Nat.mul_le_mul_right _ h2
    rw [Nat.mul_add, Nat.mul_left_comm] at this
    omega
  · have : 2 * p.spmul.toNat - 1 ≤ p.maxdisp.toNat * (2 * p.spmul.toNat - 1) := Nat.le_mul_of_pos_left _ h1
    rw [Nat.mul_sub, Nat.mul_left_comm] at this
    omega

/-- Settles O22: the two bounds, by which each product is near its exact value. -/
theorem legalProfilesNeverOverflow : Obligations.LegalProfilesNeverOverflow := by
  unfold Obligations.LegalProfilesNeverOverflow
  intro p h
  obtain ⟨hr1, hr2⟩ := rbmul_bounds h
  obtain ⟨hs1, hs2⟩ := spmul_bounds h
  obtain ⟨hlo, hhi⟩ := spmul_range h
  obtain ⟨h1, h2, -⟩ := h
  refine ⟨by omega, by omega, hlo, hhi, by omega, by omega, fun d hd => ?_, fun c hc => ?_⟩
  · have := Nat.mul_le_mul_right p.spmul.toNat hd
    omega
  · have := Nat.mul_le_mul_right p.rbmul.toNat hc
    omega

/-! ### Display and percent (R87 to R91) -/

/-- "All in unsigned 32 bits", on numbers. -/
theorem scale16_eq (x mul : Word) :
    scale16 x mul = BitVec.ofNat 16 ((x.toNat * mul.toNat + 32768) % 2 ^ 32 / 65536) := by
  apply BitVec.eq_of_toNat_eq
  simp [scale16, Nat.shiftRight_eq_div_pow]

theorem scale16_of_lt {x mul : Word} (h : x.toNat * mul.toNat + 32768 < 2 ^ 32) :
    scale16 x mul = BitVec.ofNat 16 ((x.toNat * mul.toNat + 32768) / 65536) := by
  rw [scale16_eq, Nat.mod_eq_of_lt h]

theorem exec_d2p (q : Quantity) (x : Word) (s : State) :
    exec (.d2p (.of q) x) s =
      orRefuse (displayToPercent s.par.ovfPolicy (profileAt q s) x) fun v => .next (deliver (.percent v) s) := rfl

theorem exec_p2d (q : Quantity) (x : Word) (s : State) :
    exec (.p2d (.of q) x) s =
      orRefuse (percentToDisplay s.par.ovfPolicy (profileAt q s) x) fun v => .next (deliver (.display v) s) := rfl

theorem displayToPercent_eq_ok {pol : OvfPolicy} {p : Profile} {x : Word}
    (h : x.toNat ≤ p.maxdisp.toNat ∨ pol = .wrap32) :
    displayToPercent pol p x = .ok (scale16 x p.spmul) := by
  refine if_neg ?_
  rintro ⟨rfl, hlt⟩
  obtain h | h := h
  · omega
  · cases h

theorem displayToPercent_eq_error {p : Profile} {x : Word} (h : p.maxdisp.toNat < x.toNat) :
    displayToPercent .refuse p x = .error .displayRange := if_pos ⟨rfl, h⟩

theorem percentToDisplay_eq_ok {pol : OvfPolicy} {p : Profile} {x : Word} (h : x.toNat ≤ 25600 ∨ pol = .wrap32) :
    percentToDisplay pol p x = .ok (scale16 x p.rbmul) := by
  refine if_neg ?_
  rintro ⟨rfl, hlt⟩
  obtain h | h := h
  · exact absurd hlt (Nat.not_lt.mpr h)
  · cases h

theorem percentToDisplay_eq_error {p : Profile} {x : Word} (h : 25600 < x.toNat) :
    percentToDisplay .refuse p x = .error .percentRange := if_pos ⟨rfl, h⟩

/-- Settles O23: the operand test, the product, and no wrap under a legal profile. -/
theorem displayIsScaledToPercent : Obligations.DisplayIsScaledToPercent := by
  unfold Obligations.DisplayIsScaledToPercent
  intro q display s p
  refine ⟨fun h => ?_, fun hp hle => ?_, fun hlt hpol => ?_⟩
  · rw [exec_d2p, displayToPercent_eq_ok h, orRefuse_ok, scale16_eq]
    rfl
  · obtain ⟨-, -, -, -, -, -, hprod, -⟩ := legalProfilesNeverOverflow p hp
    rw [exec_d2p, displayToPercent_eq_ok (.inl hle), orRefuse_ok, scale16_of_lt (hprod _ hle).1]
    rfl
  · rw [exec_d2p, hpol, displayToPercent_eq_error hlt, orRefuse_error]

/-- Settles O24: the operand test, the product, and no wrap under a legal profile. -/
theorem percentIsScaledToDisplay : Obligations.PercentIsScaledToDisplay := by
  unfold Obligations.PercentIsScaledToDisplay
  intro q percent s p
  refine ⟨fun h => ?_, fun hp hle => ?_, fun hlt hpol => ?_⟩
  · rw [exec_p2d, percentToDisplay_eq_ok h, orRefuse_ok, scale16_eq]
    rfl
  · obtain ⟨-, -, -, -, -, -, -, hprod⟩ := legalProfilesNeverOverflow p hp
    rw [exec_p2d, percentToDisplay_eq_ok (.inl hle), orRefuse_ok, scale16_of_lt (hprod _ hle)]
    rfl
  · rw [exec_p2d, hpol, percentToDisplay_eq_error hlt, orRefuse_error]

/-- Settles O25: no profile is read for P. -/
theorem powerConversionIsRefused : Obligations.PowerConversionIsRefused := by
  unfold Obligations.PowerConversionIsRefused
  exact fun _ _ => ⟨rfl, rfl⟩

/-- R90 on numbers: the two roundings together move `65536 * d` by less than a half of 65536. -/
theorem roundTrip_exact {p : Profile} (h : ProfileOk p) {d c : Nat} (hd : d ≤ p.maxdisp.toNat)
    (hc : c = (d * p.spmul.toNat + 32768) / 65536) (hc' : c ≤ 25600) : (c * p.rbmul.toNat + 32768) / 65536 = d := by
  obtain ⟨hr1, hr2⟩ := rbmul_bounds h
  obtain ⟨hs1, hs2⟩ := spmul_bounds h
  obtain ⟨-, h9999, -⟩ := h
  generalize p.maxdisp.toNat = ns at *
  generalize p.spmul.toNat = q at *
  generalize p.rbmul.toNat = r at *
  have hc1 : 65536 * c ≤ d * q + 32768 := by omega
  have hc2 : d * q ≤ 65536 * c + 32768 := by omega
  have hdn : d * ns ≤ 9999 * 9999 := Nat.mul_le_mul (by omega) h9999
  have setpoint_le : 131072 * (ns * c) ≤ 3355443200 * d + d * ns + 65536 * ns := by
    nlinarith [Nat.mul_le_mul_left ns hc1, Nat.mul_le_mul_left d hs1]
  have le_setpoint : 3355443200 * d ≤ 131072 * (ns * c) + 65536 * ns + d * ns := by
    nlinarith [Nat.mul_le_mul_left ns hc2, Nat.mul_le_mul_left d hs2.le]
  have readback_le : 51200 * (c * r) ≤ 131072 * (ns * c) + 25600 * c := by
    nlinarith [Nat.mul_le_mul_left c hr1]
  have le_readback : 131072 * (ns * c) ≤ 51200 * (c * r) + 25600 * c := by
    nlinarith [Nat.mul_le_mul_left c hr2.le]
  omega

/-- Settles O26: the percent value is at most full scale, and converts back exactly. -/
theorem displayRoundTripIsExact : Obligations.DisplayRoundTripIsExact := by
  unfold Obligations.DisplayRoundTripIsExact
  intro q display s hp hle
  obtain ⟨-, -, -, -, -, -, hprod, hprod'⟩ := legalProfilesNeverOverflow _ hp
  obtain ⟨hlt, hpct⟩ := hprod _ hle
  have hc : (scale16 display (profileAt q s).spmul).toNat =
      (display.toNat * (profileAt q s).spmul.toNat + 32768) / 65536 := by
    rw [scale16_of_lt hlt, BitVec.toNat_ofNat]
    exact Nat.mod_eq_of_lt (Nat.lt_of_le_of_lt hpct (by omega))
  have hw : ((scale16 display (profileAt q s).spmul).setWidth 32).toNat =
      (scale16 display (profileAt q s).spmul).toNat := by
    rw [BitVec.toNat_setWidth]
    omega
  refine ⟨scale16 display (profileAt q s).spmul, ?_, by rw [hc]; exact hpct, ?_⟩
  · rw [exec_d2p, displayToPercent_eq_ok (.inl hle), orRefuse_ok]
    rfl
  · have hle' : ((scale16 display (profileAt q s).spmul).setWidth 32).toNat ≤ 25600 := by rw [hw, hc]; exact hpct
    rw [exec_p2d, percentToDisplay_eq_ok (.inl hle'), orRefuse_ok, scale16_of_lt (hprod' _ hle'), hw,
      roundTrip_exact hp hle hc (by rw [hc]; exact hpct)]
    rfl

end Sys2Proof.Machine
end

section
/-!
PROOFS. The gain/offset half of the converter (41_unit_converter.md R92, R93), PWMSET (43_pwm_driver.md R126) and SETREQ
(44_client_frames.md R148).
-/
namespace Sys2Proof.Machine

/-! ### Gain, half, shift, offset -/

/-- `t` of R92 and R93: the product and the half of the shift. -/
def scaledTerm (c : CalEntry) (x shift : Nat) : Nat := c.gain * x + 2 ^ (shift - 1)

/-- `t`, taken modulo 2^32, shifted and offset (D16). -/
def calibrated (c : CalEntry) (x shift : Nat) : Int :=
  ((scaledTerm c x shift % 2 ^ 32 / 2 ^ shift : Nat) : Int) + c.offset

theorem two_pow_div_two {n : Nat} (h : 1 ≤ n) : 2 ^ n / 2 = 2 ^ (n - 1) := by
  obtain ⟨m, rfl⟩ := Nat.exists_eq_add_of_le' h
  rw [pow_succ, Nat.mul_div_cancel _ (by omega), Nat.add_sub_cancel]

theorem affine_eq_ok {pol : OvfPolicy} {c : CalEntry} {x n : Nat} (hn : 1 ≤ n)
    (h : scaledTerm c x n < 2 ^ 32 ∨ pol = .wrap32) : affine pol c x n = .ok (calibrated c x n) := by
  have hp : calProduct pol c.gain x n = .ok (scaledTerm c x n % 2 ^ 32) := by
    unfold calProduct
    rw [two_pow_div_two hn]
    by_cases ht : scaledTerm c x n < 2 ^ 32
    · rw [Nat.mod_eq_of_lt ht]
      exact if_pos ht
    · obtain rfl := h.resolve_left ht
      exact if_neg ht
  rw [affine, hp, calibrated]
  simp [Nat.shiftRight_eq_div_pow]

theorem affine_eq_error {c : CalEntry} {x n : Nat} (hn : 1 ≤ n) (h : 2 ^ 32 ≤ scaledTerm c x n) :
    affine .refuse c x n = .error .productOverflow := by
  have hp : calProduct .refuse c.gain x n = .error .productOverflow := by
    unfold calProduct
    rw [two_pow_div_two hn]
    exact if_neg (Nat.not_lt.mpr h)
  rw [affine, hp]

/-! ### Readings to percent (R92) -/

theorem exec_raw2pct (i : ReadCal) (j : Channel) (s : State) :
    exec (.raw2pct i j) s = orRefuse (raw2pctValue i j s) fun v => .next (deliver (.percent v) s) := rfl

section Reading

variable {p : Params} {i : ReadCal} {x : Nat} (hn : 1 ≤ p.adcShift)
include hn

theorem rawToPercent_eq_ok (h : scaledTerm (readCal i p.cal) x p.adcShift < 2 ^ 32 ∨ p.ovfPolicy = .wrap32)
    (hu : calibrated (readCal i p.cal) x p.adcShift ≤ 65535) :
    rawToPercent p i x = .ok (BitVec.ofNat 16 (max 0 (calibrated (readCal i p.cal) x p.adcShift)).toNat) := by
  simp only [rawToPercent, affine_eq_ok hn h, if_pos hu]
  congr 2
  omega

theorem rawToPercent_eq_overflow (h : scaledTerm (readCal i p.cal) x p.adcShift < 2 ^ 32 ∨ p.ovfPolicy = .wrap32)
    (hu : 65535 < calibrated (readCal i p.cal) x p.adcShift) : rawToPercent p i x = .error .percentOverflow := by
  simp only [rawToPercent, affine_eq_ok hn h, if_neg (Int.not_le.mpr hu)]

theorem rawToPercent_eq_productOverflow (h : 2 ^ 32 ≤ scaledTerm (readCal i p.cal) x p.adcShift)
    (hp : p.ovfPolicy = .refuse) : rawToPercent p i x = .error .productOverflow := by
  simp only [rawToPercent, hp, affine_eq_error hn h]

end Reading

/-- Settles O27: RAW2PCT's three results. -/
theorem readingIsConvertedToPercent : Obligations.ReadingIsConvertedToPercent := by
  unfold Obligations.ReadingIsConvertedToPercent
  intro i j s hn t u
  refine ⟨fun h hu => ?_, fun h hu => ?_, fun h hpol => ?_⟩
  · rw [exec_raw2pct, raw2pctValue, rawToPercent_eq_ok hn h hu]
    rfl
  · rw [exec_raw2pct, raw2pctValue, rawToPercent_eq_overflow hn h hu]
    rfl
  · rw [exec_raw2pct, raw2pctValue, rawToPercent_eq_productOverflow hn h hpol]
    rfl

/-- With SET-A's calibration every reading of 14 bits converts. -/
theorem rawToPercent_setA (i : ReadCal) {x : Nat} (hx : x < 2 ^ 14) : ∃ v, rawToPercent Params.setA i x = .ok v := by
  have hgain : (readCal i Params.setA.cal).gain ≤ 102400 := by cases i <;> decide
  have hoff : (readCal i Params.setA.cal).offset ≤ 0 := by cases i <;> decide
  have ht : scaledTerm (readCal i Params.setA.cal) x Params.setA.adcShift < 2 ^ 32 := by
    have := Nat.mul_le_mul hgain (Nat.le_of_lt hx)
    have : 2 ^ (Params.setA.adcShift - 1) = 32768 := rfl
    rw [scaledTerm]
    omega
  refine ⟨_, rawToPercent_eq_ok (by decide) (.inl ht) ?_⟩
  have : 2 ^ Params.setA.adcShift = 65536 := rfl
  rw [calibrated, this]
  omega

theorem raw2pctValue_reset (i : ReadCal) (j : Channel) : ∃ v, raw2pctValue i j State.reset = .ok v := by
  have hr : ReadingOk 10 (readingAt j State.reset.raw) := by
    cases j <;> exact readingOk_reset _
  exact rawToPercent_setA i hr.1

/-- Settles O28: a reading at reset has the 14 bits of its register, whatever its free value. -/
theorem readingsConvertBeforeTheFirstScan : Obligations.ReadingsConvertBeforeTheFirstScan := by
  unfold Obligations.ReadingsConvertBeforeTheFirstScan
  constructor
  · intro i j
    obtain ⟨v, hv⟩ := raw2pctValue_reset i j
    refine ⟨v, ?_⟩
    rw [exec_raw2pct, hv]
    rfl
  · obtain ⟨rv, hv⟩ := raw2pctValue_reset .vread .voltage
    obtain ⟨ri, hi⟩ := raw2pctValue_reset .iread .current
    exact ⟨rv, ri, hv, hi⟩

/-! ### Percent to compare (R93, R126) -/

theorem exec_pct2pwm (i : SetCal) (x : Word) (s : State) :
    exec (.pct2pwm i x) s = orRefuse (percentToPwm s.par i x.toNat) fun v => .next (deliver (.compare v) s) := rfl

section Compare

variable {p : Params} {i : SetCal} {x : Nat} (hn : 1 ≤ p.pwmShift)
include hn

theorem percentToPwm_eq_ok (h : scaledTerm (setCal i p.cal) x p.pwmShift < 2 ^ 32 ∨ p.ovfPolicy = .wrap32)
    (h0 : 0 ≤ calibrated (setCal i p.cal) x p.pwmShift) (hle : calibrated (setCal i p.cal) x p.pwmShift ≤ p.pwmPeriod) :
    percentToPwm p i x = .ok ((p.pwmPeriod : Int) - calibrated (setCal i p.cal) x p.pwmShift).toNat := by
  have hr : ¬(calibrated (setCal i p.cal) x p.pwmShift < 0 ∨
      (p.pwmPeriod : Int) < calibrated (setCal i p.cal) x p.pwmShift) := by omega
  simp only [percentToPwm, affine_eq_ok hn h, if_neg hr]
  congr 1
  omega

theorem percentToPwm_eq_codeRange (h : scaledTerm (setCal i p.cal) x p.pwmShift < 2 ^ 32 ∨ p.ovfPolicy = .wrap32)
    (hr : calibrated (setCal i p.cal) x p.pwmShift < 0 ∨
      (p.pwmPeriod : Int) < calibrated (setCal i p.cal) x p.pwmShift) :
    percentToPwm p i x = .error .pwmCodeRange := by
  simp only [percentToPwm, affine_eq_ok hn h, if_pos hr]

theorem percentToPwm_eq_productOverflow (h : 2 ^ 32 ≤ scaledTerm (setCal i p.cal) x p.pwmShift)
    (hp : p.ovfPolicy = .refuse) : percentToPwm p i x = .error .productOverflow := by
  simp only [percentToPwm, hp, affine_eq_error hn h]

end Compare

/-- Settles O29: PCT2PWM's three results. -/
theorem percentIsConvertedToCompare : Obligations.PercentIsConvertedToCompare := by
  unfold Obligations.PercentIsConvertedToCompare
  intro i percent s hn t code
  refine ⟨fun h h0 hle => ?_, fun h hr => ?_, fun h hpol => ?_⟩
  · rw [exec_pct2pwm, percentToPwm_eq_ok hn h h0 hle]
    rfl
  · rw [exec_pct2pwm, percentToPwm_eq_codeRange hn h hr]
    rfl
  · rw [exec_pct2pwm, percentToPwm_eq_productOverflow hn h hpol]
    rfl

/-- Settles O43: the conversion with the kind's entry, and its value loaded. -/
theorem compareRegisterIsLoaded : Obligations.CompareRegisterIsLoaded := by
  unfold Obligations.CompareRegisterIsLoaded
  intro k percent s hn c t code cmp
  have hcal : c = setCal (setCalOfQuantity k) s.par.cal := by
    cases k <;> rfl
  clear_value c
  subst hcal
  refine ⟨fun h h0 hle => ?_, fun h hr => ?_, fun h hpol => ?_⟩
  · rw [exec_pwmset, pwmSet, percentToPwm_eq_ok hn h h0 hle]
    cases k <;> rfl
  · rw [exec_pwmset, pwmSet, percentToPwm_eq_codeRange hn h hr]
    rfl
  · rw [exec_pwmset, pwmSet, percentToPwm_eq_productOverflow hn h hpol]
    rfl

/-! ### SETREQ (R148) -/

theorem exec_setreq (on : Bool) (dv di : Word) (s : State) :
    exec (.setreq on dv di) s =
      orRefuse (displayToPercent s.par.ovfPolicy s.profV dv) fun v =>
        orRefuse (displayToPercent s.par.ovfPolicy s.profI di) fun i =>
          .next (sendFrame .master 1 (setpointPayload s.par.setpointReqReserved on v i) s) := rfl

theorem setpointPayload_eq (r on : Bool) (v i : Half) :
    setpointPayload r on v i = boolByte on :: (bytePair v ++ bytePair i ++ if r then [0] else []) := by
  rw [setpointPayload, be16_eq_bytePair, be16_eq_bytePair]

theorem setpointPayload_length (r on : Bool) (v i : Half) : (setpointPayload r on v i).length ≤ 14 := by
  cases r <;> simp [setpointPayload]

/-- Settles O49: both display values converted, and the request's frame sent. -/
theorem setpointRequestIsBuilt : Obligations.SetpointRequestIsBuilt := by
  unfold Obligations.SetpointRequestIsBuilt
  intro on dv di s h v i
  have hv : dv.toNat ≤ s.profV.maxdisp.toNat ∨ s.par.ovfPolicy = .wrap32 := h.symm.imp_left And.left
  have hi : di.toNat ≤ s.profI.maxdisp.toNat ∨ s.par.ovfPolicy = .wrap32 := h.symm.imp_left And.right
  rw [exec_setreq, displayToPercent_eq_ok hv, displayToPercent_eq_ok hi, orRefuse_ok, orRefuse_ok, sendFrame,
    buildFrame_eq_frameOf _ (setpointPayload_length _ _ _ _), setpointPayload_eq, scale16_eq, scale16_eq]
  rfl

/-- Settles O50: the voltage's refusal, or the current's once the voltage converts; both are the same. -/
theorem setpointRequestOutOfRangeIsRefused : Obligations.SetpointRequestOutOfRangeIsRefused := by
  unfold Obligations.SetpointRequestOutOfRangeIsRefused
  intro on dv di s hpol h
  rw [exec_setreq, hpol]
  by_cases hv : s.profV.maxdisp.toNat < dv.toNat
  · rw [displayToPercent_eq_error hv, orRefuse_error]
  · rw [displayToPercent_eq_ok (.inl (Nat.not_lt.mp hv)), orRefuse_ok, displayToPercent_eq_error (h.resolve_left hv),
      orRefuse_error]

end Sys2Proof.Machine
end
